-- ==== Sys2Proof/Word.lean ====
section
/-! DEFINITION. The plainest types: a byte of a line or frame, a run of character codes, and a time on the show clock. -/

namespace Sys2Proof

/-- One byte of a control-port line or of a pit-link frame (R168, R185). -/
abbrev Byte := BitVec 8

/-- A run of character codes 0..255: a name, a note text, the characters of a line (R11, R81, R144). -/
abbrev Text := List Byte

/-- A time or a duration in microseconds on the show clock (00_scope.md, "Time"). -/
abbrev Time := Nat

/-- The character codes of an ASCII spelling. -/
def ascii (s : String) : Text := s.toList.map fun c => BitVec.ofNat 8 c.toNat

end Sys2Proof
end

