-- ==== Sys2Proof/Config.lean ====
section
/-! DEFINITION. What the part fixes once (ranges, periods, capacities), and the values its manual leaves free. -/

namespace Sys2Proof

/-- The low end of the device range of P (00_scope.md, "Beat period and fractions"; R3). -/
def Config.periodLow : Nat := 200000

/-- The high end of the device range of P (00_scope.md; R3). -/
def Config.periodHigh : Nat := 2000000

/-- P at power-on, RESET, SHOW.LOAD and SHOW.ERASE (R17). -/
def Config.periodStart : Nat := 500000

/-- The show clock is a 48-bit count (00_scope.md, "Time"). -/
def Config.clockSpan : Nat := 281474976710656

/-- Capacities: form entries (R1), marks (R11), cues and actions (R79), pending clicks of a lane (R68, R70). -/
def Config.formCapacity : Nat := 256
def Config.markCapacity : Nat := 128
def Config.cueCapacity : Nat := 1024
def Config.actionCapacity : Nat := 4096
def Config.clickCapacity : Nat := 16

/-- Capacities of the two notice queues (R172). -/
def Config.highCapacity : Nat := 32
def Config.lowCapacity : Nat := 64

/-- The line buffer and the longest line that is read (R168). -/
def Config.bufferBytes : Nat := 512
def Config.lineLimit : Nat := 200

/-- The least time between two POLL starts and between two BEACON starts (R122). -/
def Config.pollPeriod : Time := 20000
def Config.beaconPeriod : Time := 100000

/-- How long a stop line's level must hold before it is taken (R160). -/
def Config.settleTime : Time := 10000

/-- A STOP frame is sent at most this many times (R125). -/
def Config.stopSends : Nat := 4

/-- Fault counts at which a station is WARN and goes OFF (R131), and the quarantine in polls (R133). -/
def Config.warnCount : Nat := 96
def Config.offCount : Nat := 256
def Config.quarantinePolls : Nat := 16

/-- Counters that stay at 65 535 once reached (R17, R45, R130, R168). -/
def Config.counterTop : Nat := 65535

/-- The greatest click offset (R64) and the greatest frame delay (R64, R140). -/
def Config.offsetTop : Nat := 100000
def Config.delayTop : Nat := 8

/-- The greatest patch number (00_scope.md, "Numbers and codes"). -/
def Config.patchTop : Nat := 16383

/-- A write of the show image takes at most this long (R178). -/
def Config.saveTop : Time := 4000000

/-- FREE VALUE (DESIGN CHOICE, log 29). The sum found in the image when the part itself ends a write: the manual gives
no byte layout of the image, and a write may fail. The argument is `Dev.fresh`, as below. -/
opaque Config.imageSum : Nat → BitVec 16

/-- FREE VALUE (DESIGN CHOICE, log 2). What the show clock shows after its last count, 2^48 - 1: the manual gives
the clock its 48 bits and does not say what follows the last count. The argument is `Dev.fresh`, a count of the
free values used so far, so nothing relates two of them. -/
opaque Config.clockAfterLast : Nat → BitVec 48

end Sys2Proof
end

