-- ==== Sys2Proof/Syntax.lean ====
section
/-! DEFINITION. The commands of the part: the ONE inductive `Instr`, a constructor for each row of
spec/opcode_table.json, and the values its operands are made of. -/

namespace Sys2Proof

/-! ## Values -/

/-- A written position `bar:beat` (00_scope.md, "Positions"). -/
structure Pos where
  bar  : Nat
  beat : Nat
  deriving DecidableEq, Repr

/-- A written position `bar:beat.tick` (00_scope.md, "Positions"). -/
structure TPos where
  bar  : Nat
  beat : Nat
  tick : Nat
  deriving DecidableEq, Repr

/-- A beat's position, with tick 0. -/
def Pos.toT (p : Pos) : TPos := ⟨p.bar, p.beat, 0⟩

/-- The beat a position belongs to. -/
def TPos.toPos (p : TPos) : Pos := ⟨p.bar, p.beat⟩

/-- A form entry's tempo policy (R1, R22). -/
inductive Policy | nominal | keep
  deriving DecidableEq, Repr

/-- A form entry's mode: the click leads, or the beat follows the holder (R1). -/
inductive BeatMode | lead | follow
  deriving DecidableEq, Repr

/-- The seven show states (R151), in the order of their codes in a BEACON (R185). -/
inductive ShowState | dark | arming | ready | countIn | running | stopped | done
  deriving DecidableEq, Repr

/-- The five beat sources (R45). -/
inductive Src | tap1 | tap2 | tap3 | tap4 | port
  deriving DecidableEq, Repr

/-- Which edges of a tap line are taps (R45, R47). -/
inductive EdgeSel | rise | fall | both | off
  deriving DecidableEq, Repr

/-- The direction of one edge of a tap line (R47). -/
inductive EdgeDir | rising | falling
  deriving DecidableEq, Repr

/-- The two camera inputs (R138). -/
inductive Cam | cam1 | cam2
  deriving DecidableEq, Repr

/-- Where an output's picture comes from (R140). -/
inductive OutSource | cam1 | cam2 | focus
  deriving DecidableEq, Repr

/-- The video standard, 50 Hz or 59.94 Hz (R63, R143). -/
inductive Standard | hz50 | hz5994
  deriving DecidableEq, Repr

/-- The two overlay pages (R144). -/
inductive PageSel | run | stop
  deriving DecidableEq, Repr

/-- The auto-fields of the overlay pages (R145). -/
inductive Field | bar | beat | tempo | vamp | nextCue | focus | note | holder | mark
  deriving DecidableEq, Repr

/-- A place on an overlay page: row 1..2 and column 1..32 (R145). -/
structure Place where
  row : Nat
  col : Nat
  deriving DecidableEq, Repr

/-- MUTE or OPEN (R68). -/
inductive Mute | muted | opened
  deriving DecidableEq, Repr

/-- A station's VAMPOUT permission (R130). -/
inductive Permission | allowed | denied
  deriving DecidableEq, Repr

/-- The two stop lines (R160). -/
inductive StopLine | a | b
  deriving DecidableEq, Repr

/-- The level of a stop line (R151, R160). -/
inductive Level | asserted | released
  deriving DecidableEq, Repr

/-- A stop holder (R151). Station `n` is written STN(n+1). -/
inductive Holder | lineA | lineB | port | station (n : Fin 16)
  deriving DecidableEq, Repr

/-- A slot: station 1..16, held from 0, and letter A..D, held from 0 (R98). -/
structure SlotId where
  station : Fin 16
  letter  : Fin 4
  deriving DecidableEq, Repr

/-- The status a frame completes with (R120). -/
inductive FrameStatus | ack | retry | check | silent
  deriving DecidableEq, Repr

/-- The result an APPLIED report carries (R105, R185). -/
inductive ApplyResult | ok | refused
  deriving DecidableEq, Repr

/-- The two stages of a cue (R79). -/
inductive Stage | send | atCue
  deriving DecidableEq, Repr

/-- What the late check is told of the cue's SEND stage (R86). -/
inductive SendSeen | fired | passed | unspent
  deriving DecidableEq, Repr

/-- The kind of a beat mark (R19). -/
inductive BeatKind | downbeat | beat | countDown | count
  deriving DecidableEq, Repr

/-- A beat mark (R19). `entry` is the form entry index, counted from 1; `pass` is 0 outside a vamp. -/
structure BeatMark where
  time   : Time
  pos    : Pos
  kind   : BeatKind
  period : Nat
  entry  : Nat
  pass   : Nat
  hold   : Bool
  count  : Option Nat
  deriving DecidableEq, Repr

/-- A PATCH action: a part code and a patch (R80). -/
structure PatchAction where
  part  : BitVec 12
  patch : Nat
  deriving DecidableEq, Repr

/-- One action of a cue (R80). A NOTE action of `none` is CLEAR. -/
inductive Action
  | patch (a : PatchAction)
  | note (n : Option (Fin 64))
  | lane (lane : Fin 8) (mute : Mute) (sub : Option Nat)
  deriving DecidableEq, Repr

/-- The holder handed to the Video Unit: identity, camera and name (R49). `camera = none` is NONE. -/
structure FocusHand where
  src    : Src
  camera : Option Cam
  name   : Text
  deriving DecidableEq, Repr

/-- The thirteen notice classes (R172). -/
inductive NoticeClass
  | showCtl | focus | patch | station | align | video | store
  | cue | beat | bar | vamp | edit | tap
  deriving DecidableEq, Repr

/-! ## What the requests carry: the operands, named fields and flags of their lines -/

/-- The fields of a FORM.PUT line; `none` and an empty list are fields the line leaves out (R1). -/
structure FormFields where
  first   : Nat
  count   : Nat
  meter   : Nat
  nominal : Option Nat
  policy  : Option Policy
  band    : Option Nat
  mode    : Option BeatMode
  vamp    : Option Nat
  holds   : List Pos
  actEnd  : Bool
  deriving DecidableEq, Repr

/-- The forms of FORM.GET (R8). -/
inductive FormQuery | summary | bar (b : Nat) | after (b : Nat)
  deriving DecidableEq, Repr

/-- The fields of a MARK.PUT line (R11). -/
structure MarkFields where
  name    : Text
  pos     : Pos
  countIn : Option Nat
  tempo   : Option Nat
  deriving DecidableEq, Repr

/-- The forms of MARK.GET (R13). -/
inductive MarkQuery | named (n : Text) | first | after (n : Text)
  deriving DecidableEq, Repr

/-- The fields of a CUE.PUT line (R79). The number is in tenths. -/
structure CueFields where
  num     : Nat
  pos     : TPos
  lead    : Option Nat
  actions : List Action
  deriving DecidableEq, Repr

/-- The forms of CUE.GET (R83). -/
inductive CueQuery | summary | num (n : Nat) | first | after (n : Nat)
  deriving DecidableEq, Repr

/-- The filter part of a SLOT.FILTER line (R100): left out, `FILTER=NONE`, or a code with or without a mask. -/
inductive FilterField | left | none | code (code : BitVec 12) (mask : Option (BitVec 12)) | maskAlone (mask : BitVec 12)
  deriving DecidableEq, Repr

/-- The home part of a SLOT.FILTER line (R100). -/
inductive HomeField | left | none | patch (p : Nat)
  deriving DecidableEq, Repr

/-- The two forms of SLOT.FILTER (R100). The applied timeout is in milliseconds. -/
inductive FilterFields
  | slot (i : SlotId) (filter : FilterField) (home : HomeField)
  | timeout (ms : Nat)
  deriving DecidableEq, Repr

/-- The camera of a SRC.SET line (R45). -/
inductive CameraField | cam (c : Cam) | none
  deriving DecidableEq, Repr

/-- The fields of a SRC.SET line (R46). The debounce is in milliseconds. -/
structure SrcFields where
  rank     : Option Nat
  edge     : Option EdgeSel
  debounce : Option Nat
  camera   : Option CameraField
  name     : Option Text
  deriving DecidableEq, Repr

/-- The fields of an ENGINE.SET line (R18). -/
structure EngineFields where
  w  : Option Nat
  kt : Option Nat
  kp : Option Nat
  s  : Option Nat
  c  : Option Nat
  deriving DecidableEq, Repr

/-- The bound output of a ROOM.SET line (R62). -/
inductive BindField | out (o : Fin 6) | none
  deriving DecidableEq, Repr

/-- The fields of a ROOM.SET line (R66). -/
structure RoomFields where
  cr   : Option Nat
  vr   : Option Nat
  out  : Option BindField
  name : Option Text
  deriving DecidableEq, Repr

/-- The fields of a LANE.SET line (R69). -/
structure LaneFields where
  room   : Option (Fin 4)
  sub    : Option Nat
  accent : Option Bool
  level  : Option Nat
  mute   : Option Mute
  deriving DecidableEq, Repr

/-- The fields of a VIDEO.SET line (R143). -/
structure VideoFields where
  std   : Option Standard
  flash : Option Nat
  deriving DecidableEq, Repr

/-- The fields of an OUT.SET line (R140). -/
structure OutFields where
  source  : Option OutSource
  delay   : Option Nat
  overlay : Option Bool
  deriving DecidableEq, Repr

/-- The forms of NOTICE.MASK (R173). -/
inductive MaskFields | all | none | default | classes (mask unmask : List NoticeClass)
  deriving DecidableEq, Repr

/-- The sections of STATUS (R176). -/
inductive Section | top | showCtl | engine | focus | cues | slots | link | video | out (n : Fin 6) | port
  deriving DecidableEq, Repr

/-! ## The commands -/

/-- A command of the part: one constructor for each row of spec/opcode_table.json. A request carries its tag
first (R168); its other operands are the fields of its line. An event carries what it hands over. Who may send
which is said in INVENTORY.md under Agents. -/
inductive Instr
  -- the whole part and the control port
  | powerOn
  | reset (tag : Nat)
  | lineByteReceived (b : Byte)
  | requestLineTaken
  | outputLineEnd
  | status (tag : Nat) (q : Section)
  -- Form Table and Mark Table
  | formPut (tag : Nat) (f : FormFields)
  | formDel (tag : Nat) (bar : Nat)
  | formGet (tag : Nat) (q : FormQuery)
  | markPut (tag : Nat) (f : MarkFields)
  | markDel (tag : Nat) (name : Text)
  | markGet (tag : Nat) (q : MarkQuery)
  -- Cue Scheduler
  | cuePut (tag : Nat) (f : CueFields)
  | cueDel (tag : Nat) (num : Nat)
  | cueGet (tag : Nat) (q : CueQuery)
  | cueFire (tag : Nat) (num : Nat)
  | notePut (tag : Nat) (idx : Fin 64) (text : Text)
  -- Slot Manager, stations
  | slotFilter (tag : Nat) (f : FilterFields)
  | slotGet (tag : Nat) (i : SlotId)
  | slotRetry (tag : Nat) (i : Option SlotId)
  | stationSet (tag : Nat) (n : Fin 16) (p : Permission)
  | stationGet (tag : Nat) (n : Fin 16)
  -- beat sources, engine, focus
  | srcSet (tag : Nat) (x : Src) (f : SrcFields)
  | srcGet (tag : Nat) (x : Src)
  | engineSet (tag : Nat) (f : EngineFields)
  | focusPin (tag : Nat) (x : Src)
  | focusFree (tag : Nat) (clear : Bool)
  | tap (tag : Nat) (t : Time)
  -- rooms, lanes, video
  | roomSet (tag : Nat) (r : Fin 4) (f : RoomFields)
  | laneSet (tag : Nat) (l : Fin 8) (f : LaneFields)
  | videoSet (tag : Nat) (f : VideoFields)
  | outSet (tag : Nat) (o : Fin 6) (f : OutFields)
  | ovlText (tag : Nat) (page : PageSel) (row col : Nat) (text : Text)
  | ovlFlash (tag : Nat) (page : PageSel) (row col count : Nat) (on : Bool)
  | ovlField (tag : Nat) (field : Field) (place : Option Place)
  -- Show Controller
  | arm (tag : Nat) (name : Text)
  | go (tag : Nat) (force : Bool)
  | stop (tag : Nat) (reason : Option Nat)
  | stopClear (tag : Nat) (h : Holder)
  | vampOut (tag : Nat)
  | noticeMask (tag : Nat) (f : MaskFields)
  -- Show Store
  | showSave (tag : Nat)
  | showLoad (tag : Nat)
  | showErase (tag : Nat)
  | saveComplete (sum : BitVec 16)
  -- inputs of the pit
  | tapLineEdge (line : Fin 4) (dir : EdgeDir)
  | stopLineLevelChange (line : StopLine) (level : Level)
  | stopLineTaken (line : StopLine)
  -- the beat and its subscribers
  | beatDue
  | windowClose
  | beatMarkClick (m : BeatMark)
  | clickDue (lane : Fin 8)
  | beatMarkCue (m : BeatMark)
  | stagePendingTime
  | beatMarkVideo (m : BeatMark)
  | beatMarkPort (m : BeatMark)
  -- a stage's hand-overs
  | patchAction (cue : Nat) (a : PatchAction)
  | laneAction (lane : Fin 8) (mute : Mute) (sub : Option Nat)
  | noteAction (n : Option (Fin 64))
  | lateCheck (cue : Nat) (acts : List PatchAction) (seen : SendSeen)
  -- the pit link
  | appliedDeadline (i : SlotId)
  | pollDue
  | beaconDue
  | beaconFrameComplete (status : Byte)
  | patchFrameComplete (status : Byte)
  | stopFrameComplete (status : Byte)
  | clearFrameComplete (status : Byte)
  | pollFrameComplete (status : Byte) (block : List Byte)
  -- the Link Controller's hand-overs
  | patchOutcome (i : SlotId) (patch : Nat) (status : FrameStatus)
  | appliedReport (i : SlotId) (patch : Nat) (result : ApplyResult)
  | helloResync (n : Fin 16) (k : Nat)
  | stationOffSlots (n : Fin 16)
  | panic (n : Fin 16)
  | vampoutReport (n : Fin 16)
  -- hand-overs to and from the Show Controller
  | chasePendingCount (n : Nat)
  | actEnd
  | markBeat
  | lanesStateChange (st : ShowState)
  | cueStop
  | slotStop
  | videoStopPage
  | focusHandoverVideo (h : Option FocusHand)
  | referenceFrameStart (cam1 cam2 : Option Nat)
  deriving DecidableEq, Repr

end Sys2Proof
end

