-- ==== Sys2Proof/Decode.lean ====
section
/-! DEFINITION. The decoder of command words. The table gives no row any bits: the part's commands are request lines
and events, not words, so no word spells a command. Request lines are read in Machine/Grammar.lean. -/

namespace Sys2Proof

/-- The command a word of the table spells: none, since no row of the table has bits (98_reader.md). -/
def decodeTableWord (_nbits _w : Nat) : Option Instr := none

end Sys2Proof
end

