-- ==== Sys2Proof/Machine/State.lean ====
section
/-! DEFINITION. The state of the part as plain data, block by block; the reasons a step can stop; and the state
after reset. -/

namespace Sys2Proof.Machine

/-! ## Show data: what the show image holds (spec 10, section 10.4) -/

/-- A form entry (R1). -/
structure FormEntry where
  first   : Nat
  count   : Nat
  meter   : Nat
  nominal : Option Nat
  policy  : Policy
  band    : Nat
  mode    : BeatMode
  vamp    : Option Nat
  holds   : List Pos
  actEnd  : Bool
  deriving DecidableEq, Repr

/-- A mark (R11). -/
structure Mark where
  name    : Text
  pos     : Pos
  countIn : Nat
  tempo   : Option Nat
  deriving DecidableEq, Repr

/-- A cue (R79). The number is in tenths. -/
structure Cue where
  num     : Nat
  pos     : TPos
  lead    : Nat
  actions : List Action
  deriving DecidableEq, Repr

/-- An acceptance filter (R98, R99). -/
structure Filter where
  code : BitVec 12
  mask : BitVec 12
  deriving DecidableEq, Repr

/-- The settings of a slot (R98). -/
structure SlotSet where
  filter : Option Filter
  home   : Option Nat
  deriving DecidableEq, Repr

/-- The settings of a beat source (R45). PORTTAP has no edge select. -/
structure SrcSet where
  rank     : Nat
  edge     : Option EdgeSel
  debounce : Nat
  camera   : Option Cam
  name     : Text
  deriving DecidableEq, Repr

/-- One value for each beat source (R45). -/
structure PerSrc (α : Type) where
  tap1 : α
  tap2 : α
  tap3 : α
  tap4 : α
  port : α
  deriving DecidableEq, Repr

/-- The engine settings (R18). -/
structure EngineSet where
  w  : Nat
  kt : Nat
  kp : Nat
  s  : Nat
  c  : Nat
  deriving DecidableEq, Repr

/-- The settings of a room (R62). -/
structure RoomSet where
  cr   : Nat
  vr   : Nat
  out  : Option (Fin 6)
  name : Text
  deriving DecidableEq, Repr

/-- The settings of a lane (R68). -/
structure LaneSet where
  room   : Fin 4
  sub    : Nat
  accent : Bool
  level  : Nat
  mute   : Mute
  deriving DecidableEq, Repr

/-- The settings of a video output (R140). -/
structure OutSet where
  source    : OutSource
  portDelay : Nat
  overlay   : Bool
  deriving DecidableEq, Repr

/-- A cell of an overlay page (R144). -/
structure Cell where
  code  : Byte
  flash : Bool
  deriving DecidableEq, Repr

/-- An overlay page: 2 rows of 32 cells, row 1 first (R144). -/
abbrev Page := Vector Cell 64

/-- Every table and setting that is show data (spec 10, section 10.4). -/
structure ShowData where
  form     : List FormEntry
  marks    : List Mark
  cues     : List Cue
  notes    : Vector Text 64
  slots    : Vector SlotSet 64
  timeout  : Nat
  perms    : Vector Permission 16
  srcs     : PerSrc SrcSet
  engine   : EngineSet
  rooms    : Vector RoomSet 4
  lanes    : Vector LaneSet 8
  std      : Standard
  flashLen : Nat
  outs     : Vector OutSet 6
  runPage  : Page
  stopPage : Page
  fields   : Vector (Option Place) 9
  deriving DecidableEq, Repr

/-! ## Beat Engine (R17) -/

/-- What a HOLD waits on (R17). -/
inductive HoldKind | point | mark
  deriving DecidableEq, Repr

/-- The engine state, with the kind of a HOLD (R17). -/
inductive EngState | idle | count | run | hold (k : HoldKind)
  deriving DecidableEq, Repr

/-- The vamp release state (R35). -/
inductive Release | none | armed | deferred
  deriving DecidableEq, Repr

/-- The prepared count-in (R39). -/
structure Prepared where
  pos    : Pos
  entry  : Nat
  bars   : Nat
  meter  : Nat
  period : Nat
  deriving DecidableEq, Repr

/-- A beat, named by a serial number and its position (log 10). -/
structure BeatRef where
  no  : Nat
  pos : Pos
  deriving DecidableEq, Repr

/-- A window close scheduled and not yet handed over (R29): the beat, when it closes, whether the beat's entry is
FOLLOW, and whether the holder has matched the beat. -/
structure Close where
  beat    : BeatRef
  due     : Time
  follow  : Bool
  matched : Bool
  deriving DecidableEq, Repr

/-- The Beat Engine (R17). `period` is P, `due` is N, `last` is L; `matchedL`, `matchedPrev` and `tm` are the match
record (R24); `window` is Wb of the beat at L (R19); `beatNo` is the serial number of the beat at L (log 10). -/
structure Engine where
  st          : EngState
  period      : Nat
  due         : Option Time
  last        : Option Time
  pos         : Option Pos
  entry       : Option Nat
  pass        : Nat
  rel         : Release
  counter     : Nat
  prepared    : Option Prepared
  matchedL    : Bool
  matchedPrev : Bool
  tm          : Option Time
  window      : Nat
  beatNo      : Nat
  closes      : List Close
  deriving DecidableEq, Repr

/-! ## Source Arbiter (R45, R49) -/

/-- The runtime fields of a beat source (R45). -/
structure SrcRun where
  taps      : Nat
  bounces   : Nat
  strays    : Nat
  claims    : Nat
  claimBeat : Option BeatRef
  claimTap  : Option Time
  lastTap   : Option Time
  deriving DecidableEq, Repr

/-- ACTIVE or LAPSED (R49). -/
inductive HolderStatus | active | lapsed
  deriving DecidableEq, Repr

/-- The focus holder and its status (R49). -/
structure Focus where
  src    : Src
  status : HolderStatus
  deriving DecidableEq, Repr

/-- The Source Arbiter's runtime state (R45, R49). -/
structure Arbiter where
  srcs   : PerSrc SrcRun
  focus  : Option Focus
  misses : Nat
  pin    : Bool
  deriving DecidableEq, Repr

/-! ## Rooms and lanes (R62, R68) -/

/-- The derived values of a room (R62, R64). -/
structure RoomRun where
  oc    : Nat
  dv    : Option Nat
  short : Nat
  deriving DecidableEq, Repr

/-- The tone of a click (R70). -/
inductive ClickKind | accent | beat | count | sub
  deriving DecidableEq, Repr

/-- A pending click (R70). -/
structure Click where
  due    : Time
  engine : Time
  kind   : ClickKind
  level  : Nat
  beat   : Pos
  deriving DecidableEq, Repr

/-- What a lane's output sounded last, and when (R70). -/
structure Sounded where
  time  : Time
  click : Click
  deriving DecidableEq, Repr

/-- The runtime fields of a lane (R68). -/
structure LaneRun where
  cueMute : Mute
  cueSub  : Option Nat
  queue   : List Click
  out     : Option Sounded
  deriving DecidableEq, Repr

/-! ## Cue Scheduler (R84) -/

/-- PLACED or UNPLACED (R84). -/
inductive Placement | placed | unplaced
  deriving DecidableEq, Repr

/-- A stage's condition; a PENDING stage carries its pending time (R84). -/
inductive Cond | unspent | pending (t : Time) | fired | passed
  deriving DecidableEq, Repr

/-- The runtime state of one cue (R84). A cue with no record has the values of R97: no send point, no placement,
both stages UNSPENT. -/
structure CueRun where
  num       : Nat
  send      : Option TPos
  placement : Option Placement
  sendCond  : Cond
  atCond    : Cond
  deriving DecidableEq, Repr

/-- The cursor of a run (R84). -/
structure Cursor where
  pos    : Pos
  time   : Time
  period : Nat
  deriving DecidableEq, Repr

/-- The run context (R84). -/
structure RunCtx where
  mark   : Pos
  cursor : Option Cursor
  deriving DecidableEq, Repr

/-- A stage of a cue, by number (R83). -/
structure StageRef where
  num   : Nat
  stage : Stage
  deriving DecidableEq, Repr

/-- The Cue Scheduler's runtime state (R83, R84). -/
structure Sched where
  runs    : List CueRun
  deleted : List StageRef
  ctx     : Option RunCtx
  deriving DecidableEq, Repr

/-! ## Slot Manager (R98) -/

/-- The request state of a slot (R98). -/
inductive Req | idle | queued | sent | withheld | fault
  deriving DecidableEq, Repr

/-- The runtime fields of a slot (R98). -/
structure SlotRun where
  present   : Bool
  desired   : Option Nat
  confirmed : Option Nat
  req       : Req
  reqPatch  : Option Nat
  attempt   : Option Nat
  inFlight  : Bool
  chase     : Bool
  deadline  : Option Time
  deriving DecidableEq, Repr

/-! ## Link Controller (R118, R130) -/

/-- The kind of a frame and what its completion must know (R118, R119). -/
inductive FrameKind
  | beacon
  | patch (i : SlotId) (patch : Nat)
  | poll
  | stop (episode : Nat)
  | clear (n : Fin 16)
  deriving DecidableEq, Repr

/-- A frame in flight (R118): kind, epoch tag, and its bytes up to the check word (R185). -/
structure Frame where
  kind  : FrameKind
  tag   : Nat
  bytes : List Byte
  deriving DecidableEq, Repr

/-- A patch queue entry (R118). -/
structure QueueEntry where
  slot  : SlotId
  patch : Nat
  deriving DecidableEq, Repr

/-- STOP pending (R118). -/
structure StopPending where
  episode : Nat
  sends   : Nat
  deriving DecidableEq, Repr

/-- An entry of the CLEAR list (R118); `ready` is READY, else WAITING. -/
structure ClearEntry where
  station : Fin 16
  ready   : Bool
  deriving DecidableEq, Repr

/-- The health state of a station (R130). -/
inductive Health | absent | active | warn | off
  deriving DecidableEq, Repr

/-- The cause of the last rise of a fault count (R130). -/
inductive LinkError | check | silent | unknownReport
  deriving DecidableEq, Repr

/-- A station record (R130), without the permission, which is show data. -/
structure Station where
  state     : Health
  faults    : Nat
  polls     : Nat
  slotCount : Nat
  lastError : Option LinkError
  stale     : Nat
  deriving DecidableEq, Repr

/-- The Link Controller (R118). The rotation start is held from 0. -/
structure Link where
  line        : Option Frame
  queue       : List QueueEntry
  stopPending : Option StopPending
  clears      : List ClearEntry
  rotation    : Fin 16
  lastPoll    : Option Time
  lastBeacon  : Option Time
  epoch       : Nat
  stations    : Vector Station 16
  deriving DecidableEq, Repr

/-! ## Video Unit (R138, R140) -/

/-- A picture: black, a camera frame, or a held camera frame. A frame is known by an identity (log 20). -/
inductive Picture | black | live (id : Nat) | held (id : Nat)
  deriving DecidableEq, Repr

/-- A camera record (R138). -/
structure CamRun where
  locked   : Bool
  missing  : Nat
  lastGood : Option Nat
  deriving DecidableEq, Repr

/-- A capture slot with both cameras' pictures, its beat tag and its recorded position (R138, R146, R148). -/
structure VSlot where
  no   : Nat
  pic1 : Picture
  pic2 : Picture
  tag  : Option BeatKind
  pos  : Option Pos
  deriving DecidableEq, Repr

/-- A beat tag of a slot that has not begun (R148). -/
structure VTag where
  no   : Nat
  kind : BeatKind
  deriving DecidableEq, Repr

/-- A cell as drawn: its code, and whether it is inverted (R144, R148). -/
structure Drawn where
  code : Byte
  inv  : Bool
  deriving DecidableEq, Repr

/-- What a video output shows (R141, R149): the picture, the page drawn or none, and the page's cells. -/
structure Shown where
  pic   : Picture
  page  : Option PageSel
  cells : List Drawn
  deriving DecidableEq, Repr

/-- The runtime fields of a video output (R140). `next` is the camera that a hand-over of the holder makes current at
the next frame start, if one came since the last (R142). -/
structure OutRun where
  cam   : Cam
  next  : Option Cam
  flash : Nat
  shown : Shown
  deriving DecidableEq, Repr

/-- The Video Unit's runtime state (R138, R146 to R149). -/
structure Video where
  origin    : Time
  nextFrame : Nat
  cam1      : CamRun
  cam2      : CamRun
  store     : List VSlot
  tags      : List VTag
  lastPos   : Option Pos
  outs      : Vector OutRun 6
  note      : Option (Fin 64)
  blink     : Option Nat
  deriving DecidableEq, Repr

/-! ## Show Controller (R151) -/

/-- The armed mark: the copy of R15. -/
structure Armed where
  mark  : Mark
  entry : Nat
  deriving DecidableEq, Repr

/-- A stop line (R151, R160): the level on it, when that level came, and the level taken. -/
structure LineRun where
  level   : Level
  changed : Time
  taken   : Level
  deriving DecidableEq, Repr

/-- The Show Controller (R151). -/
structure Control where
  state    : ShowState
  holders  : List Holder
  episode  : Nat
  first    : Option Holder
  reason   : Nat
  stopPos  : Option Pos
  stopTime : Option Time
  armed    : Option Armed
  count    : Nat
  lineA    : LineRun
  lineB    : LineRun
  deriving DecidableEq, Repr

/-- The stop record (R166). -/
structure StopRecord where
  episode  : Nat
  state    : ShowState
  holders  : List Holder
  first    : Option Holder
  reason   : Nat
  stopPos  : Option Pos
  stopTime : Option Time
  mark     : Option Text
  count    : Nat
  deriving DecidableEq, Repr

/-! ## Control Port (R168 to R175) -/

/-- A refusal code (R169). -/
inductive Code
  | syntaxErr | unknown | range | full | notFound | state | held | notReady | notHeld | notVamp | busy | overlap | gap
  deriving DecidableEq, Repr

/-- A value of a reply or notice field, before it is spelled (spec 11, section 11.1). -/
inductive Val
  | num (n : Nat)
  | word (w : String)
  | name (t : Text)
  | text (t : Text)
  | pos (p : Pos)
  | tpos (p : TPos)
  | cue (tenths : Nat)
  | hex (c : BitVec 12)
  | slot (i : SlotId)
  | station (n : Fin 16)
  | holder (h : Holder)
  | cls (c : NoticeClass)
  deriving DecidableEq, Repr

/-- A field of a reply or notice: a key, empty for a bare value, and its values. No value is sent as NONE (R184). -/
structure Fld where
  key  : String
  vals : List Val
  deriving DecidableEq, Repr

/-- An answer to a request: `OK` with its fields or `NO` with a code (spec 11, section 11.1). -/
inductive Answer | ok (fields : List Fld) | no (c : Code)
  deriving DecidableEq, Repr

/-- A reply: the request's tag and the answer (R170). -/
structure Reply where
  tag    : Nat
  answer : Answer
  deriving DecidableEq, Repr

/-- Causes of a SHOW notice (R152). -/
inductive ShowCause | arm | loaded | go | markBeat | actEnd | stop | release | load | erase | start
  deriving DecidableEq, Repr

/-- Causes of a FOCUS notice (R61). -/
inductive FocusCause | race | claim | release | pin | free | clear | lapse | recover
  deriving DecidableEq, Repr

/-- The outcome a TAP notice carries (R61). -/
inductive TapOutcome
  | matched (p : Pos) | stray | unclassified | claim (count : Nat) | take (c : FocusCause) | ignored
  deriving DecidableEq, Repr

/-- Kinds of a PATCH notice; LATE carries the cue number and the cue's patch (R116). -/
inductive PatchCause | refused | timeout | late (cue patch : Nat)
  deriving DecidableEq, Repr

/-- Causes of a STATION notice (R136). -/
inductive StationCause | join | warn | active | off
  deriving DecidableEq, Repr

/-- Causes of a VIDEO notice (R139). -/
inductive VideoCause | lost | black | locked
  deriving DecidableEq, Repr

/-- VALID or INVALID (R177). -/
inductive ImageCond | valid | invalid
  deriving DecidableEq, Repr

/-- Causes of a STORE notice (R178, R181). -/
inductive StoreCause | saved | failed | invalid
  deriving DecidableEq, Repr

/-- How a stage fired (R96). -/
inductive FireHow | beat | tick | overtaken | fire
  deriving DecidableEq, Repr

/-- Outcomes of an EDIT notice (R94). -/
inductive EditOutcome | passed | unplaced | kept | dropped
  deriving DecidableEq, Repr

/-- What a VAMP notice carries (R37). -/
inductive VampEvent
  | release (rel : Release) (pass : Nat) (bar : Nat)
  | loop (pass : Nat) (rel : Release)
  | leave (pass : Nat)
  | ignored (n : Fin 16)
  deriving DecidableEq, Repr

/-- A notice with the fields of its raising rule (R172). -/
inductive Notice
  | showCtl (cause : ShowCause) (before : Option ShowState) (after : ShowState) (episode : Nat) (mark : Option Text) (t : Time)
  | focus (cause : FocusCause) (after before : Option Src) (status : Option HolderStatus) (pin : Bool) (t : Time)
  | patch (cause : PatchCause) (i : SlotId) (slot : SlotRun) (health : Health) (t : Time)
  | station (cause : StationCause) (n : Fin 16) (before : Health) (now : Station) (t : Time)
  | align (r : Fin 4) (set : RoomSet) (run : RoomRun)
  | video (cause : VideoCause) (c : Cam) (outs : List Nat) (t : Time)
  | store (cause : StoreCause) (cond : ImageCond) (t : Time)
  | cue (num : Nat) (stage : Stage) (how : FireHow) (point : Option TPos) (actions : Nat) (t : Time)
  | cueUnplaced (num : Nat) (pos : TPos)
  | beat (m : BeatMark)
  | bar (m : BeatMark)
  | vamp (e : VampEvent)
  | edit (num : Nat) (stages : List Stage) (outcome : EditOutcome) (point : Option TPos) (run : Option Pos)
  | tap (x : Src) (outcome : TapOutcome) (t : Time)
  deriving DecidableEq, Repr

/-- A line the part sends (spec 11, section 11.1). -/
inductive OutLine | reply (r : Reply) | record (r : StopRecord) | notice (n : Notice)
  deriving DecidableEq, Repr

/-- A received line (R168): the bytes kept, how many were dropped from it, how many of the kept bytes came before the
first dropped one, and when its LF arrived. It is damaged when a byte of it was dropped. -/
structure RxLine where
  bytes   : Text
  dropped : Nat
  whole   : Nat
  time    : Time
  deriving DecidableEq, Repr

/-- The Control Port (R168 to R175). `lost` bytes were dropped from the line arriving, the first of them behind
`lostAt` kept ones, and `lastLost` says that the last byte to arrive was one of them; `mask` holds the masked classes and `missed` the classes whose flag is set. -/
structure Port where
  lines         : List RxLine
  arriving      : Text
  lost          : Nat
  lostAt        : Nat
  lastLost      : Bool
  inHand        : Option Instr
  reply         : Option Reply
  sending       : Option OutLine
  high          : List Notice
  low           : List Notice
  mask          : List NoticeClass
  missed        : List NoticeClass
  record        : StopRecord
  recordChanged : Bool
  discarded     : Nat
  deriving DecidableEq, Repr

/-! ## Show Store (R177) -/

/-- The Show Store (R177): `began` is when the save in progress began, and the store state is WRITING while it is
present. `sum` is the sum of the image in the medium over its bytes and its check word, absent while the image is not
one whole write: never written, erased, or being written (log 19). -/
structure Store where
  began : Option Time
  cond  : ImageCond
  sum   : Option (BitVec 16)
  image : ShowData
  deriving DecidableEq, Repr

/-! ## The whole part -/

/-- The part: every block's state, the show clock, and the hand-overs between blocks not yet taken (log 3). -/
structure Dev where
  clock     : Time
  fresh     : Nat
  data      : ShowData
  eng       : Engine
  arb       : Arbiter
  rooms     : Vector RoomRun 4
  lanes     : Vector LaneRun 8
  sched     : Sched
  slots     : Vector SlotRun 64
  link      : Link
  video     : Video
  ctl       : Control
  port      : Port
  store     : Store
  handovers : List Instr
  deriving DecidableEq, Repr

/-- The state of the machine: the part, and the commands that wait, first in, first out. -/
structure State where
  dev     : Dev
  pending : List Instr
  deriving DecidableEq, Repr

/-- Why a step stops with a fault. The manual has no event that stops the part, so there is no such reason: every
command answers a next state. -/
inductive Fault : Type
  deriving DecidableEq, Repr

/-- Why a command is refused by the model. -/
inductive Refusal
  /-- Raised by an arm of `exec` for a command that has no meaning yet. Safe: nothing is claimed of it. -/
  | notModelled (mnemonic : String)
  deriving DecidableEq, Repr

/-! ## Updates of one block -/

namespace Dev

def setClock (d : Dev) (x : Time) : Dev := { d with clock := x }
def setFresh (d : Dev) (x : Nat) : Dev := { d with fresh := x }
def setData (d : Dev) (x : ShowData) : Dev := { d with data := x }
def setEng (d : Dev) (x : Engine) : Dev := { d with eng := x }
def setArb (d : Dev) (x : Arbiter) : Dev := { d with arb := x }
def setRooms (d : Dev) (x : Vector RoomRun 4) : Dev := { d with rooms := x }
def setLanes (d : Dev) (x : Vector LaneRun 8) : Dev := { d with lanes := x }
def setSched (d : Dev) (x : Sched) : Dev := { d with sched := x }
def setSlots (d : Dev) (x : Vector SlotRun 64) : Dev := { d with slots := x }
def setLink (d : Dev) (x : Link) : Dev := { d with link := x }
def setVideo (d : Dev) (x : Video) : Dev := { d with video := x }
def setCtl (d : Dev) (x : Control) : Dev := { d with ctl := x }
def setPort (d : Dev) (x : Port) : Dev := { d with port := x }
def setStore (d : Dev) (x : Store) : Dev := { d with store := x }
def setHandovers (d : Dev) (x : List Instr) : Dev := { d with handovers := x }

end Dev

/-! ## Values at reset -/

/-- The default settings of a tap line source (R45). -/
def SrcSet.default : Src → SrcSet
  | .tap1 => ⟨1, some .fall, 60, some .cam1, ascii "TAP1"⟩
  | .tap2 => ⟨2, some .fall, 60, some .cam1, ascii "TAP2"⟩
  | .tap3 => ⟨3, some .fall, 60, some .cam2, ascii "TAP3"⟩
  | .tap4 => ⟨4, some .off, 60, none, ascii "TAP4"⟩
  | .port => ⟨5, none, 20, none, ascii "PORT"⟩

/-- The default static cells of a page: the text given at the start of each row, and the flash cells (R145). -/
def Page.of (row1 row2 : Text) (flash : Nat → Bool) : Page :=
  Vector.ofFn fun (i : Fin 64) =>
    ⟨((if i.val < 32 then row1 else row2)[i.val % 32]?).getD 32, flash i.val⟩

/-- The default RUN page: blank, with the flash attribute under BEAT (R145). -/
def Page.runDefault : Page := Page.of [] [] fun i => i == 5 || i == 6

/-- The default STOP page: `SHOW STOP` flashing and `RESUME` (R145). -/
def Page.stopDefault : Page := Page.of (ascii "SHOW STOP") (ascii "RESUME") fun i => decide (i < 9)

/-- The show data of an empty part: empty tables and default settings (R16, R18, R45, R62, R68, R97, R117, R137,
R140, R143, R145). -/
def ShowData.default : ShowData where
  form := []
  marks := []
  cues := []
  notes := Vector.replicate 64 []
  slots := Vector.replicate 64 ⟨none, none⟩
  timeout := 2000
  perms := Vector.replicate 16 .denied
  srcs := ⟨.default .tap1, .default .tap2, .default .tap3, .default .tap4, .default .port⟩
  engine := ⟨16, 4, 8, 4, 2⟩
  rooms := #v[⟨0, 0, none, ascii "ROOM1"⟩, ⟨0, 0, none, ascii "ROOM2"⟩, ⟨0, 0, none, ascii "ROOM3"⟩,
    ⟨0, 0, none, ascii "ROOM4"⟩]
  lanes := Vector.replicate 8 ⟨0, 1, true, 12, .opened⟩
  std := .hz50
  flashLen := 3
  outs := Vector.replicate 6 ⟨.cam1, 0, true⟩
  runPage := .runDefault
  stopPage := .stopDefault
  fields := #v[some ⟨1, 1⟩, some ⟨1, 6⟩, some ⟨1, 9⟩, some ⟨1, 13⟩, some ⟨1, 20⟩, some ⟨1, 27⟩, some ⟨2, 1⟩,
    some ⟨1, 12⟩, some ⟨2, 8⟩]

/-- The Beat Engine at power-on, RESET, SHOW.LOAD and SHOW.ERASE (R17). -/
def Engine.start : Engine where
  st := .idle
  period := Config.periodStart
  due := none
  last := none
  pos := none
  entry := none
  pass := 0
  rel := .none
  counter := 0
  prepared := none
  matchedL := false
  matchedPrev := false
  tm := none
  window := 0
  beatNo := 0
  closes := []

/-- A source's runtime fields at power-on, RESET, SHOW.LOAD and SHOW.ERASE (R45). -/
def SrcRun.start : SrcRun := ⟨0, 0, 0, 0, none, none, none⟩

/-- The Source Arbiter at power-on, RESET, SHOW.LOAD and SHOW.ERASE (R45, R49). -/
def Arbiter.start : Arbiter := ⟨⟨.start, .start, .start, .start, .start⟩, none, 0, false⟩

/-- The lanes' runtime at power-on, RESET, SHOW.LOAD and SHOW.ERASE (R78). -/
def LaneRun.start : LaneRun := ⟨.opened, none, [], none⟩

/-- The Cue Scheduler's runtime after the events of R97. -/
def Sched.start : Sched := ⟨[], [], none⟩

/-- A slot's runtime fields at power-on and RESET (R117). -/
def SlotRun.start : SlotRun := ⟨false, none, none, .idle, none, none, false, false, none⟩

/-- A station record at power-on and RESET (R137). -/
def Station.start : Station := ⟨.absent, 0, 0, 0, none, 0⟩

/-- The Link Controller at power-on (R137). -/
def Link.start : Link where
  line := none
  queue := []
  stopPending := none
  clears := []
  rotation := 0
  lastPoll := none
  lastBeacon := none
  epoch := 1
  stations := Vector.replicate 16 .start

/-- A camera at power-on and after a change of standard (R138, R143). -/
def CamRun.start : CamRun := ⟨false, 51, none⟩

/-- An output's runtime fields at power-on (R140, log 20). -/
def OutRun.start : OutRun := ⟨.cam1, none, 0, ⟨.black, none, []⟩⟩

/-- The Video Unit at power-on (R138, R140, R147). -/
def Video.start : Video where
  origin := 0
  nextFrame := 0
  cam1 := .start
  cam2 := .start
  store := []
  tags := []
  lastPos := none
  outs := Vector.replicate 6 .start
  note := none
  blink := none

/-- The Show Controller at power-on with both lines released (R167). -/
def Control.start : Control where
  state := .dark
  holders := []
  episode := 0
  first := none
  reason := 0
  stopPos := none
  stopTime := none
  armed := none
  count := 0
  lineA := ⟨.released, 0, .released⟩
  lineB := ⟨.released, 0, .released⟩

/-- The stop record of a Show Controller (R166). -/
def Control.record (c : Control) : StopRecord where
  episode := c.episode
  state := c.state
  holders := c.holders
  first := c.first
  reason := c.reason
  stopPos := c.stopPos
  stopTime := c.stopTime
  mark := c.armed.map fun a => a.mark.name
  count := c.count

/-- The default mask (R173). -/
def Port.defaultMask : List NoticeClass := [.beat, .bar, .tap]

/-- The Control Port at power-on, with the stop record handed over and no notice raised yet (R173, R175, R181). -/
def Port.start : Port where
  lines := []
  arriving := []
  lost := 0
  lostAt := 0
  lastLost := false
  inHand := none
  reply := none
  sending := none
  high := []
  low := []
  mask := Port.defaultMask
  missed := []
  record := Control.start.record
  recordChanged := true
  discarded := 0

/-- The part right after power-on with an INVALID image and both stop lines released, its start-up notices raised
(R167, R181), before the output arbiter and the transmit arbiter have chosen (log 7). -/
def Dev.reset : Dev where
  clock := 0
  fresh := 0
  data := .default
  eng := .start
  arb := .start
  rooms := Vector.replicate 4 ⟨0, none, 0⟩
  lanes := Vector.replicate 8 .start
  sched := .start
  slots := Vector.replicate 64 .start
  link := .start
  video := .start
  ctl := .start
  port := { Port.start with
    high := [.store .invalid .invalid 0, .showCtl .start none .dark 0 none 0] }
  store := ⟨none, .invalid, none, .default⟩
  handovers := []

/-- The machine right after reset, its queue empty. -/
def State.reset : State := ⟨Dev.reset, []⟩

/-- The state after a command whose effect on the part is `f`: the queue is untouched. -/
def State.after (s : State) (f : Dev → Dev) : State := { s with dev := f s.dev }

end Sys2Proof.Machine
end

