-- ==== Sys2Proof/Machine/Operands.lean ====
section
/-! DEFINITION. Positions and the form, the arithmetic of the manual, and the ways to reach one record of a table:
the reads every block shares. -/

namespace Sys2Proof

namespace Machine

/-! ## Arithmetic (00_scope.md, "Arithmetic") -/

/-- Clamped to a range: raised to its lower end or lowered to its upper end. -/
def clamp (lo hi x : Nat) : Nat := max lo (min hi x)

/-- Division rounded upward. -/
def ceilDiv (a b : Nat) : Nat := (a + b - 1) / b

/-- The tempo shown to people: 60 000 000 / P rounded half-up, clamped to 30..300 (R44). -/
def tempoShown (p : Nat) : Nat := clamp 30 300 ((2 * 60000000 + p) / (2 * p))

/-- A counter that stays at its top once reached (R17, R45, R130, R168). -/
def satSucc (top n : Nat) : Nat := min top (n + 1)

/-- One function applied to every record of a table. -/
def mapAll {n : Nat} {α β : Type} (f : α → β) (v : Vector α n) : Vector β n := ⟨(v.toList.map f).toArray, by simp⟩

/-! ## Positions (00_scope.md, "Positions"; R9) -/

end Machine

/-- Comparison by bar, then beat. -/
def Pos.before (p q : Pos) : Bool := p.bar < q.bar || (p.bar == q.bar && p.beat < q.beat)

/-- Comparison by bar, then beat, then tick. -/
def TPos.before (p q : TPos) : Bool :=
  p.bar < q.bar || (p.bar == q.bar && (p.beat < q.beat || (p.beat == q.beat && p.tick < q.tick)))

/-- At or before. -/
def TPos.upTo (p q : TPos) : Bool := !q.before p

namespace Machine

/-- Comparison of two names in character-code order (R11). -/
def textBefore : Text → Text → Bool
  | _, [] => false
  | [], _ :: _ => true
  | a :: as, b :: bs => a.toNat < b.toNat || (a == b && textBefore as bs)

/-! ## The form (R1 to R3, R9, R10) -/

/-- The last bar of an entry (R1). -/
def FormEntry.last (e : FormEntry) : Nat := e.first + e.count - 1

/-- Whether a bar belongs to an entry (R2). -/
def FormEntry.hasBar (e : FormEntry) (b : Nat) : Bool := e.first ≤ b && b ≤ e.last

/-- The last bar of the form, 0 when the table is empty (R2). -/
def lastBar (form : List FormEntry) : Nat := form.foldl (fun m e => max m e.last) 0

/-- Whether the entries go on from a bar without a gap (R2). -/
def coveredFrom : Nat → List FormEntry → Bool
  | _, [] => true
  | b, e :: es => e.first == b && coveredFrom (e.last + 1) es

/-- Whether the form is covered (R2). -/
def covered (form : List FormEntry) : Bool := !form.isEmpty && coveredFrom 1 form

/-- The entry a bar belongs to, with its index counted from `i` (R2). -/
def entryOfBarFrom (b : Nat) : Nat → List FormEntry → Option (Nat × FormEntry)
  | _, [] => none
  | i, e :: es => if e.hasBar b then some (i, e) else entryOfBarFrom b (i + 1) es

/-- The entry a bar belongs to, with its index counted from 1 (R2). -/
def entryOfBar (form : List FormEntry) (b : Nat) : Option (Nat × FormEntry) := entryOfBarFrom b 1 form

/-- The entry with an index counted from 1 (R2). -/
def entryAt (form : List FormEntry) (i : Nat) : Option FormEntry := if i = 0 then none else form[i - 1]?

/-- The meter of a bar, when it lies in the form (R2). -/
def meterOf (form : List FormEntry) (b : Nat) : Option Nat := (entryOfBar form b).map fun x => x.2.meter

/-- Whether a position is in the form (R9). -/
def inForm (form : List FormEntry) (p : Pos) : Bool :=
  match meterOf form p.bar with
  | some m => 1 ≤ p.beat && p.beat ≤ m
  | none => false

/-- The next beat of a position, in written order (R9). -/
def nextBeat (form : List FormEntry) (p : Pos) : Option Pos :=
  match meterOf form p.bar with
  | none => none
  | some m =>
    if p.beat < m then some ⟨p.bar, p.beat + 1⟩
    else if (entryOfBar form (p.bar + 1)).isSome then some ⟨p.bar + 1, 1⟩
    else none

/-- The previous beat of a position, in written order, its tick kept (R9). -/
def prevBeat (form : List FormEntry) (p : TPos) : Option TPos :=
  if 1 < p.beat then some ⟨p.bar, p.beat - 1, p.tick⟩
  else if p.bar ≤ 1 then none
  else (meterOf form (p.bar - 1)).map fun m => ⟨p.bar - 1, m, p.tick⟩

/-- The lead walk (R10): `l` previous-beat steps, stopping at 1:1.0 when a step is needed from bar 1, beat 1. -/
def leadWalk (form : List FormEntry) : TPos → Nat → TPos
  | p, 0 => p
  | p, l + 1 =>
    match prevBeat form p with
    | some q => leadWalk form q l
    | none => ⟨1, 1, 0⟩

/-- The P limits of an entry (R3). -/
def FormEntry.limits (e : FormEntry) : Nat × Nat :=
  match e.nominal with
  | some n =>
    if e.band = 0 then (Config.periodLow, Config.periodHigh)
    else
      let d := n * e.band / 64
      (max (n - d) Config.periodLow, min (n + d) Config.periodHigh)
  | none => (Config.periodLow, Config.periodHigh)

/-- P clamped to an entry's limits (R3). -/
def FormEntry.clampPeriod (e : FormEntry) (p : Nat) : Nat := clamp e.limits.1 e.limits.2 p

/-- Whether a position is one of an entry's holds (R4). -/
def FormEntry.holdsAt (e : FormEntry) (p : Pos) : Bool := e.holds.contains p

/-! ## Records of the tables -/

/-- The value of one beat source. -/
def PerSrc.get {α : Type} (p : PerSrc α) : Src → α
  | .tap1 => p.tap1
  | .tap2 => p.tap2
  | .tap3 => p.tap3
  | .tap4 => p.tap4
  | .port => p.port

/-- One source's value replaced. -/
def PerSrc.set {α : Type} (p : PerSrc α) (x : Src) (a : α) : PerSrc α :=
  match x with
  | .tap1 => { p with tap1 := a }
  | .tap2 => { p with tap2 := a }
  | .tap3 => { p with tap3 := a }
  | .tap4 => { p with tap4 := a }
  | .port => { p with port := a }

/-- One function applied to every source's value, told which source it is. -/
def PerSrc.mapAll {α β : Type} (f : Src → α → β) (p : PerSrc α) : PerSrc β :=
  ⟨f .tap1 p.tap1, f .tap2 p.tap2, f .tap3 p.tap3, f .tap4 p.tap4, f .port p.port⟩

end Machine

/-- The five sources. -/
def Src.all : List Src := [.tap1, .tap2, .tap3, .tap4, .port]

/-- The source of a tap line (R45). -/
def Src.ofLine (k : Fin 4) : Src :=
  match k with
  | 0 => .tap1
  | 1 => .tap2
  | 2 => .tap3
  | 3 => .tap4

/-- A slot's place in slot order (R98). -/
def SlotId.index (i : SlotId) : Fin 64 := ⟨4 * i.station.val + i.letter.val, by omega⟩

namespace Machine

/-- The four slots of a station, in slot order. -/
def stationSlots (n : Fin 16) : List SlotId := [⟨n, 0⟩, ⟨n, 1⟩, ⟨n, 2⟩, ⟨n, 3⟩]

/-- The 64 slots, in slot order (R98). -/
def allSlots : List SlotId :=
  ([0, 1, 2, 3, 4, 5, 6, 7, 8, 9, 10, 11, 12, 13, 14, 15] : List (Fin 16)).flatMap stationSlots

/-- The runtime record of a slot (R98). -/
def Dev.slot (d : Dev) (i : SlotId) : SlotRun := d.slots[i.index]

/-- The settings of a slot (R98). -/
def Dev.slotSet (d : Dev) (i : SlotId) : SlotSet := d.data.slots[i.index]

/-- A slot's runtime record changed. -/
def Dev.updSlot (d : Dev) (i : SlotId) (f : SlotRun → SlotRun) : Dev :=
  d.setSlots (d.slots.set i.index (f (d.slot i)))

/-- A station's record (R130). -/
def Dev.station (d : Dev) (n : Fin 16) : Station := d.link.stations[n]

/-- A station's record changed. -/
def Dev.updStation (d : Dev) (n : Fin 16) (f : Station → Station) : Dev :=
  d.setLink { d.link with stations := d.link.stations.set n (f (d.station n)) }

/-- The store state WRITING (R177). -/
def Store.writing (s : Store) : Bool := s.began.isSome

/-- A station is joined while ACTIVE or WARN (R98, R130). -/
def Dev.joined (d : Dev) (n : Fin 16) : Bool :=
  (d.station n).state == .active || (d.station n).state == .warn

/-- A station has one more stale report (R105, R130). -/
def Dev.addStale (d : Dev) (n : Fin 16) : Dev :=
  d.updStation n fun r => { r with stale := satSucc Config.counterTop r.stale }

/-- The runtime fields of a beat source changed (R45). -/
def Dev.updSrc (d : Dev) (x : Src) (f : SrcRun → SrcRun) : Dev :=
  d.setArb { d.arb with srcs := d.arb.srcs.set x (f (d.arb.srcs.get x)) }

/-- A lane's runtime record changed (R68). -/
def Dev.updLane (d : Dev) (l : Fin 8) (f : LaneRun → LaneRun) : Dev :=
  d.setLanes (d.lanes.set l (f d.lanes[l]))

end Machine

/-- The place of an auto-field in the field map (R145). -/
def Field.index : Field → Fin 9
  | .bar => 0
  | .beat => 1
  | .tempo => 2
  | .vamp => 3
  | .nextCue => 4
  | .focus => 5
  | .note => 6
  | .holder => 7
  | .mark => 8

/-- The frame period F of a standard (R63). -/
def Standard.frame : Standard → Nat
  | .hz50 => 20000
  | .hz5994 => 16683

namespace Machine

/-- The room whose bound output an output is, if any (R62, R67). -/
def roomOf (rooms : Vector RoomSet 4) (o : Fin 6) : Option (Fin 4) :=
  ([0, 1, 2, 3] : List (Fin 4)).find? fun r => rooms[r].out == some o

/-- The delay d of an output in force: the bound room's Dv, or the port delay when no room is bound (R140). -/
def Dev.delay (d : Dev) (o : Fin 6) : Nat :=
  match roomOf d.data.rooms o with
  | some r => (d.rooms[r].dv).getD d.data.outs[o].portDelay
  | none => d.data.outs[o].portDelay

end Machine

end Sys2Proof
end

