-- ==== Sys2Proof/Machine/Flags.lean ====
section
/-! DEFINITION. Notices: the classes, the two queues with their capacities, the mask and the missed flags (R172,
R173), and the hand-overs between blocks. -/

namespace Sys2Proof

namespace Machine

/-- The class of a notice (R172). -/
def Notice.cls : Notice → NoticeClass
  | .showCtl .. => .showCtl
  | .focus .. => .focus
  | .patch .. => .patch
  | .station .. => .station
  | .align .. => .align
  | .video .. => .video
  | .store .. => .store
  | .cue .. => .cue
  | .cueUnplaced .. => .cue
  | .beat .. => .beat
  | .bar .. => .bar
  | .vamp .. => .vamp
  | .edit .. => .edit
  | .tap .. => .tap

end Machine

/-- Whether a class belongs to the high queue (R172). -/
def NoticeClass.high : NoticeClass → Bool
  | .showCtl | .focus | .patch | .station | .align | .video | .store => true
  | .cue | .beat | .bar | .vamp | .edit | .tap => false

/-- The thirteen classes (R172). -/
def NoticeClass.all : List NoticeClass :=
  [.showCtl, .focus, .patch, .station, .align, .video, .store, .cue, .beat, .bar, .vamp, .edit, .tap]

namespace Machine

/-- A class's missed flag set (R172). -/
def Port.miss (p : Port) (c : NoticeClass) : Port :=
  { p with missed := if p.missed.contains c then p.missed else p.missed ++ [c] }

/-- What the port does with a raised notice (R172): masked, it is not queued; with room it joins the tail of its
queue; else it is dropped and its class's missed flag is set. -/
def Port.raise (p : Port) (n : Notice) : Port :=
  if p.mask.contains n.cls then p
  else if n.cls.high then
    if p.high.length < Config.highCapacity then { p with high := p.high ++ [n] } else p.miss n.cls
  else
    if p.low.length < Config.lowCapacity then { p with low := p.low ++ [n] } else p.miss n.cls

/-- A block raises a notice (R172). -/
def Dev.raise (d : Dev) (n : Notice) : Dev := d.setPort (d.port.raise n)

/-- A block raises several notices, in order. -/
def Dev.raiseAll (d : Dev) (ns : List Notice) : Dev := ns.foldl Dev.raise d

/-- A block hands events over: each waits until its own command takes it (R19, R152, log 3). -/
def Dev.hand (d : Dev) (cs : List Instr) : Dev := d.setHandovers (d.handovers ++ cs)

/-- A hand-over is taken: its first entry in the list leaves (log 3). -/
def Dev.take (d : Dev) (c : Instr) : Dev := d.setHandovers (d.handovers.erase c)

/-- Whether a hand-over is a chase pending count, a mark's-beat signal or an act-end signal: what an entry into
STOPPED makes void (log 9). -/
def voidAtStop : Instr → Bool
  | .chasePendingCount _ | .markBeat | .actEnd => true
  | _ => false

/-- A hand-over of a chase pending count: what makes way where the count is set directly (log 9). -/
def isCount : Instr → Bool
  | .chasePendingCount _ => true
  | _ => false

/-- The hand-overs of a kind withdrawn (log 9). -/
def Dev.withdraw (d : Dev) (p : Instr → Bool) : Dev := d.setHandovers (d.handovers.filter fun c => !p c)

end Machine

end Sys2Proof
end

