-- ==== Sys2Proof/Machine/Engine.lean ====
section
/-! DEFINITION. The Beat Engine: what the next beat is, the emission of a beat, the holder's taps, holds, vamps, the
act end and the count-in (spec 02). -/

namespace Sys2Proof.Machine

/-! ## The next beat -/

/-- What the engine would emit next (R20, R21, R36, R40). -/
inductive Coming
  /-- Count beat `k` of the count-in (R40). -/
  | count (k : Nat)
  /-- The armed mark's beat (R41). -/
  | mark
  /-- The first beat of a new pass of the vamp (R36). -/
  | loop (p : Pos)
  /-- A beat of the score, with the index of its entry (R21). -/
  | beat (p : Pos) (entry : Nat)
  /-- The act end: no beat (R38). -/
  | actEnd
  deriving DecidableEq, Repr

/-- The next beat in written order, or the act end after the final beat of the form (R21). -/
def plainSuccessor (form : List FormEntry) (p : Pos) : Coming :=
  match nextBeat form p with
  | none => .actEnd
  | some q =>
    match entryOfBar form q.bar with
    | some (j, _) => .beat q j
    | none => .actEnd

/-- The successor of a position in RUN (R21, R36). -/
def successor (form : List FormEntry) (p : Pos) (e : FormEntry) (rel : Release) : Coming :=
  if p.bar = e.last ∧ p.beat = e.meter then
    if e.vamp.isSome then
      match rel with
      | .armed => plainSuccessor form p
      | .none | .deferred => .loop ⟨e.first, 1⟩
    else if e.actEnd then .actEnd
    else plainSuccessor form p
  else plainSuccessor form p

/-- What the engine would emit next in its present state, or nothing in IDLE. -/
def coming (form : List FormEntry) (g : Engine) : Option Coming :=
  match g.st with
  | .idle => none
  | .count => if 0 < g.counter then (g.prepared.map fun c => .count (c.bars * c.meter - g.counter + 1)) else some .mark
  | .hold .mark => some .mark
  | .run | .hold .point =>
    match g.pos, g.entry with
    | some p, some i => (entryAt form i).map fun e => successor form p e g.rel
    | _, _ => none

/-- The entry and the position of the beat that would be emitted next; none at the act end (R25, R50). -/
def comingBeat (form : List FormEntry) (g : Engine) : Option (FormEntry × Pos) :=
  match coming form g with
  | some (.count _) | some .mark =>
    match g.prepared with
    | some c => (entryAt form c.entry).map fun e => (e, c.pos)
    | none => none
  | some (.loop p) =>
    match g.entry with
    | some i => (entryAt form i).map fun e => (e, p)
    | none => none
  | some (.beat p j) => (entryAt form j).map fun e => (e, p)
  | some .actEnd | none => none

/-- The index of the current entry (R17): the entry of the last emitted beat, a count beat's being the armed mark's;
in a MARK hold the armed mark's, `entry` keeping the last emitted beat's for R43. -/
def Engine.current (g : Engine) : Option Nat :=
  match g.st with
  | .hold .mark => g.prepared.map fun c => c.entry
  | .idle | .count | .run | .hold .point => g.entry

/-- The current entry (R17). -/
def Dev.entryNow (d : Dev) : Option FormEntry :=
  match d.eng.current with
  | some i => entryAt d.data.form i
  | none => none

/-- Whether L's entry is FOLLOW (R25, R50). -/
def Dev.followNow (d : Dev) : Bool :=
  match d.entryNow with
  | some e => e.mode == .follow
  | none => false

/-! ## Emitting a beat (R20) -/

/-- Everything an emission decides before the beat mark is built (R19, R20). -/
structure BeatPlan where
  st     : EngState
  pos    : Pos
  kind   : BeatKind
  index  : Nat
  entry  : FormEntry
  period : Nat
  pass   : Nat
  rel    : Release
  left   : Nat
  hold   : Bool
  count  : Option Nat

/-- The beat mark of a plan emitted at a time (R19). -/
def BeatPlan.mark (b : BeatPlan) (t : Time) : BeatMark :=
  ⟨t, b.pos, b.kind, b.period, b.index, b.pass, b.hold, b.count⟩

/-- The engine after a plan is emitted at a time: L, the position, the window and its close, the match record, and
the hold or the next due time (R20, R24, R29, R31). -/
def BeatPlan.engine (b : BeatPlan) (t : Time) (w : Nat) (release : Bool) (g : Engine) : Engine :=
  let wb := b.period * w / 64
  { g with
    st := if b.hold then .hold .point else b.st
    period := b.period
    due := if b.hold then none else some (t + b.period)
    last := some t
    pos := some b.pos
    entry := some b.index
    pass := b.pass
    rel := b.rel
    counter := b.left
    matchedL := false
    matchedPrev := if release then false else g.matchedL
    window := wb
    beatNo := g.beatNo + 1
    closes := g.closes ++ [⟨⟨g.beatNo + 1, b.pos⟩, t + wb, b.entry.mode == .follow, false⟩] }

/-- The hand-over of a beat mark to its subscribers (R19). The Link Controller reads the position when it builds a
BEACON (R123), so nothing is handed to it. -/
def marksOf (m : BeatMark) : List Instr := [.beatMarkCue m, .beatMarkClick m, .beatMarkVideo m, .beatMarkPort m]

/-- A plan is emitted at a time (R20). -/
def Dev.putBeat (d : Dev) (t : Time) (release : Bool) (b : BeatPlan) : Dev :=
  (d.setEng (b.engine t d.data.engine.w release d.eng)).hand (marksOf (b.mark t))

/-- The engine in IDLE, with what both a stop and an act end clear (R24, R29, R38, R43). -/
def Engine.idled (g : Engine) : Engine :=
  { g with
    st := .idle
    due := none
    pass := 0
    rel := .none
    counter := 0
    matchedL := false
    matchedPrev := false
    tm := none
    closes := [] }

/-- The act end is reached: no beat, IDLE, and the signal to the Show Controller (R38). Leaving a vamp this way
raises the VAMP notice of leaving it (R37, log 13). -/
def Dev.reachActEnd (d : Dev) : Dev :=
  let d := if d.eng.pass = 0 then d else d.raise (.vamp (.leave d.eng.pass))
  (d.setEng d.eng.idled).hand [.actEnd]

/-- P at an entry change: the entry's policy (R22). -/
def FormEntry.enter (e : FormEntry) (p : Nat) : Nat :=
  match e.policy, e.nominal with
  | .nominal, some n => n
  | _, _ => e.clampPeriod p

/-- The kind of a beat of the score (R19). -/
def kindOf (p : Pos) : BeatKind := if p.beat = 1 then .downbeat else .beat

/-- The vamp pass of the first beat in an entry (R34). -/
def FormEntry.firstPass (e : FormEntry) : Nat := if e.vamp.isSome then 1 else 0

/-- Count beat `k` is emitted (R40). -/
def Dev.emitCount (d : Dev) (t : Time) (release : Bool) (k : Nat) : Dev :=
  match d.eng.prepared with
  | none => d
  | some c =>
    match entryAt d.data.form c.entry with
    | none => d
    | some e =>
      d.putBeat t release
        { st := .count, pos := c.pos, kind := if (k - 1) % c.meter = 0 then .countDown else .count, index := c.entry,
          entry := e, period := d.eng.period, pass := 0, rel := d.eng.rel, left := c.bars * c.meter - k,
          hold := false, count := some k }

/-- The armed mark's beat is emitted, and the Show Controller is signalled (R34, R41). -/
def Dev.emitMark (d : Dev) (t : Time) (release : Bool) : Dev :=
  match d.eng.prepared with
  | none => d
  | some c =>
    match entryAt d.data.form c.entry with
    | none => d
    | some e =>
      (d.putBeat t release
        { st := .run, pos := c.pos, kind := kindOf c.pos, index := c.entry, entry := e, period := d.eng.period,
          pass := e.firstPass, rel := d.eng.rel, left := 0, hold := e.holdsAt c.pos, count := none }).hand [.markBeat]

/-- The vamp loops back: a new pass, ARMED after DEFERRED (R34, R36, R37). -/
def Dev.emitLoop (d : Dev) (t : Time) (release : Bool) (p : Pos) : Dev :=
  match d.eng.entry with
  | none => d
  | some i =>
    match entryAt d.data.form i with
    | none => d
    | some e =>
      let pass := satSucc Config.counterTop d.eng.pass
      let rel : Release := match d.eng.rel with | .deferred => .armed | _ => .none
      (d.raise (.vamp (.loop pass rel))).putBeat t release
        { st := .run, pos := p, kind := kindOf p, index := i, entry := e, period := d.eng.period, pass := pass,
          rel := rel, left := 0, hold := false, count := none }

/-- A beat of the score is emitted, with an entry change when its entry is not the current one (R20, R22, R34). -/
def Dev.emitScore (d : Dev) (t : Time) (release : Bool) (p : Pos) (j : Nat) : Dev :=
  match entryAt d.data.form j with
  | none => d
  | some e =>
    let g := d.eng
    let change := g.entry != some j
    let d := if change && g.pass != 0 then d.raise (.vamp (.leave g.pass)) else d
    d.putBeat t release
      { st := .run, pos := p, kind := kindOf p, index := j, entry := e,
        period := if change then e.enter g.period else g.period,
        pass := if change then e.firstPass else g.pass, rel := if change then .none else g.rel,
        left := 0, hold := e.holdsAt p, count := none }

/-- The beat that comes next is emitted at a time, or the act end is reached (R20, R38). `release` says that a
release of a hold emits it (R24). -/
def Dev.emit (d : Dev) (t : Time) (release : Bool) : Dev :=
  match coming d.data.form d.eng with
  | none => d
  | some (.count k) => d.emitCount t release k
  | some .mark => d.emitMark t release
  | some (.loop p) => d.emitLoop t release p
  | some (.beat p j) => d.emitScore t release p j
  | some .actEnd => d.reachActEnd

/-! ## The holder's taps (R23 to R33, R41, R42) -/

/-- How the engine reports a holder tap back (R51). -/
inductive TapReport | matched (p : Pos) | stray | unclassified | discarded
  deriving DecidableEq, Repr

/-- The window closes with the flag of one beat set (R29). -/
def markClose (no : Nat) (cs : List Close) : List Close :=
  cs.map fun c => if c.beat.no = no then { c with matched := true } else c

/-- The match record with the beat at L matched at a time (R24, R26). -/
def Engine.matchNow (g : Engine) (t : Time) : Engine :=
  { g with matchedL := true, tm := some t, closes := markClose g.beatNo g.closes }

/-- P after a match at a time, before the clamp: the tempo gain on a consecutive match (R24, R26). -/
def Engine.tempo (g : Engine) (kt : Nat) (t : Time) : Int :=
  match g.matchedPrev, g.tm with
  | true, some tm => (g.period : Int) + Int.tdiv (((t : Int) - tm - g.period) * kt) 16
  | _, _ => g.period

/-- A match of the beat at L by a holder tap at a time: tempo, phase, record (R26). -/
def Engine.match_ (g : Engine) (set : EngineSet) (e : FormEntry) (t : Time) : Engine :=
  let p := e.clampPeriod (g.tempo set.kt t).toNat
  let l := g.last.getD t
  let n := l + (t - l) * set.kp / 16 + p
  let due :=
    match g.st with
    | .count | .run => some (if n ≤ t then t + p else n)
    | .idle | .hold _ => g.due
  ({ g with period := p, due := due }).matchNow t

/-- The beat at L is matched (R26). -/
def Dev.matchBeat (d : Dev) (t : Time) : Dev :=
  match d.entryNow with
  | none => d
  | some e => d.setEng (d.eng.match_ d.data.engine e t)

/-- A tap time not before L (R23). -/
def Engine.notBefore (g : Engine) (t : Time) : Time := max t (g.last.getD 0)

/-- The half-width Wp of the early window (R25). -/
def Dev.earlyWidth (d : Dev) : Nat := d.eng.period * d.data.engine.w / 64

/-- Whether a time lies in the late window of the beat at L (R25, R50). -/
def Dev.inLate (d : Dev) (t : Time) : Bool :=
  match d.eng.last with
  | some l => d.followNow && t - l ≤ d.eng.window
  | none => false

/-- Whether a time lies in the early window of the coming beat (R25, R50). -/
def Dev.inEarly (d : Dev) (t : Time) : Bool :=
  match d.eng.st, d.eng.due, comingBeat d.data.form d.eng with
  | .count, some n, some (e, _) | .run, some n, some (e, _) => e.mode == .follow && t ≤ n && n - t ≤ d.earlyWidth
  | _, _, _ => false

/-- The position of the beat at L, for a report. -/
def Engine.here (g : Engine) : Pos := g.pos.getD ⟨0, 0⟩

/-- A holder tap in COUNT or RUN: LATE, EARLY, STRAY or unclassified (R25). -/
def Dev.classify (d : Dev) (t : Time) : Dev × TapReport :=
  if d.inLate t && !d.eng.matchedL then (d.matchBeat t, .matched d.eng.here)
  else if d.inEarly t then
    let d1 := d.emit t false
    (d1.matchBeat t, .matched d1.eng.here)
  else if d.followNow then (d, .stray)
  else (d, .unclassified)

/-- A hold is released by a holder tap: the next beat at the tap's time, then matched (R24, R32, R42). A release
that reaches the act end is reported as a match of the hold beat (R38, log 13). -/
def Dev.releaseByTap (d : Dev) (t : Time) : Dev × TapReport :=
  let d1 := d.emit t true
  if d1.eng.st = .idle then (d1, .matched d.eng.here)
  else (d1.setEng (d1.eng.matchNow t), .matched d1.eng.here)

/-- A tap of the focus holder, taken by the engine state (R23, R25, R32, R42). -/
def Dev.engineTap (d : Dev) (t0 : Time) : Dev × TapReport :=
  let t := d.eng.notBefore t0
  match d.eng.st with
  | .idle => (d, .discarded)
  | .count | .run => d.classify t
  | .hold .point =>
    if d.inLate t && !d.eng.matchedL then (d.matchBeat t, .matched d.eng.here) else d.releaseByTap t
  | .hold .mark => d.releaseByTap t

/-- A change of holder handed to the engine: the record is cleared, and a claimant's previous claim tap is entered
as a match of the beat it was counted against, the beat at L or the one before it (R30). -/
def Engine.focusChange (g : Engine) (prev : Option (Time × BeatRef)) : Engine :=
  let cleared :=
    { g with
      matchedL := false
      matchedPrev := false
      tm := none
      closes := g.closes.map fun c => { c with matched := false } }
  match prev with
  | none => cleared
  | some (t, b) =>
    if b.no = g.beatNo then
      { cleared with matchedL := true, tm := some t, closes := markClose b.no cleared.closes }
    else if b.no + 1 = g.beatNo then
      { cleared with matchedPrev := true, tm := some t, closes := markClose b.no cleared.closes }
    else cleared

/-! ## GO, the vamp release and the count-in -/

/-- GO starts the count-in of the armed mark: COUNT, a MARK hold, or the mark's beat (R40, R42). -/
def Dev.engineGo (d : Dev) (t : Time) : Dev :=
  match d.eng.prepared with
  | none => d
  | some c =>
    match entryAt d.data.form c.entry with
    | none => d
    | some e =>
      let g : Engine :=
        { d.eng with
          period := c.period
          matchedL := false
          matchedPrev := false
          tm := none }
      if 0 < c.bars then (d.setEng { g with st := .count, counter := c.bars * c.meter }).emitCount t false 1
      else
        match e.mode with
        | .follow => d.setEng { g with st := .hold .mark, due := none }
        | .lead => (d.setEng g).emitMark t false

/-- GO releases a hold: the next beat at the GO time, not matched (R33, R42). -/
def Dev.goRelease (d : Dev) (t : Time) : Dev := d.emit t true

/-- The bar a vamp release is measured from: the armed mark's before its beat, else L's (R35). -/
def Engine.barNow (g : Engine) : Nat :=
  match g.st with
  | .count | .hold .mark => (g.prepared.map fun c => c.pos.bar).getD 0
  | .idle | .run | .hold .point => (g.pos.map fun p => p.bar).getD 0

/-- The vamp the engine is in, when it is not IDLE (R35). -/
def Dev.vampNow (d : Dev) : Option (FormEntry × Nat) :=
  match d.eng.st, d.entryNow with
  | .idle, _ => none
  | _, some e => e.vamp.map fun w => (e, w)
  | _, none => none

/-- A vamp release in a vamp: NONE becomes DEFERRED within the warn bars, else ARMED, with a VAMP notice; ARMED and
DEFERRED stand (R35, R37). -/
def Dev.releaseVamp (d : Dev) (e : FormEntry) (warn : Nat) : Dev :=
  match d.eng.rel with
  | .armed | .deferred => d
  | .none =>
    let bar := d.eng.barNow
    let rel : Release := if e.last - bar + 1 ≤ warn then .deferred else .armed
    (d.setEng { d.eng with rel := rel }).raise (.vamp (.release rel d.eng.pass bar))

/-- The prepared count-in of an armed mark (R39). -/
def prepare (form : List FormEntry) (p : Nat) (a : Armed) : Option Prepared :=
  (entryAt form a.entry).map fun e =>
    ⟨a.mark.pos, a.entry, a.mark.countIn, e.meter, e.clampPeriod ((a.mark.tempo.or e.nominal).getD p)⟩

/-- The engine at an entry into STOPPED: IDLE with P, L, the position and the entry kept, and no prepared count-in
(R43). -/
def Engine.stopped (g : Engine) : Engine := { g.idled with prepared := none }

end Sys2Proof.Machine
end

