-- ==== Sys2Proof/Machine/Focus.lean ====
section
/-! DEFINITION. The Source Arbiter: the tap front end, the focus holder, window closes, claims, races, releases, pin
and free (spec 03). -/

namespace Sys2Proof.Machine

/-! ## Focus -/

/-- The focus holder, if any (R49). -/
def Arbiter.holder (a : Arbiter) : Option Src := a.focus.map fun f => f.src

/-- The holder's status, absent with no holder (R49). -/
def Arbiter.status (a : Arbiter) : Option HolderStatus := a.focus.map fun f => f.status

/-- A FOCUS notice of the focus state as it stands, with the holder before the event (R61). -/
def Dev.raiseFocus (d : Dev) (cause : FocusCause) (before : Option Src) : Dev :=
  d.raise (.focus cause d.arb.holder before d.arb.status d.arb.pin d.clock)

/-- What the Video Unit is handed of a holder (R49). -/
def Dev.focusHand (d : Dev) (x : Src) : FocusHand :=
  ⟨x, (d.data.srcs.get x).camera, (d.data.srcs.get x).name⟩

/-- A source's claim ended: count 0, no claim beat, no claim tap time (R49, R53, R60). -/
def SrcRun.unclaim (r : SrcRun) : SrcRun := { r with claims := 0, claimBeat := none, claimTap := none }

/-- A source has one more stray (R45). -/
def SrcRun.stray (r : SrcRun) : SrcRun := { r with strays := satSucc Config.counterTop r.strays }

/-- Focus passes to a source: ACTIVE, no miss, its own claim ended; the engine is given the change, with the
claimant's previous claim tap if there is one, and the Video Unit the new holder (R30, R49). -/
def Dev.takeFocus (d : Dev) (x : Src) (prev : Option (Time × BeatRef)) : Dev :=
  let d := (d.setArb { d.arb with focus := some ⟨x, .active⟩, misses := 0 }).updSrc x SrcRun.unclaim
  (d.setEng (d.eng.focusChange prev)).hand [.focusHandoverVideo (some (d.focusHand x))]

/-- Focus is cleared with no new holder: every claim ended, no miss (R30, R49, R59, R60, log 21). -/
def Dev.dropFocus (d : Dev) : Dev :=
  let d := d.setArb
    { d.arb with
      srcs := d.arb.srcs.mapAll fun _ r => r.unclaim
      focus := none
      misses := 0 }
  (d.setEng (d.eng.focusChange none)).hand [.focusHandoverVideo none]

/-! ## The engine's reports (R51) -/

/-- The Arbiter acts on the engine's report of a tap of the holder `x` (R51). -/
def Dev.heard (d : Dev) (x : Src) (r : TapReport) : Dev :=
  match r with
  | .matched _ =>
    let d1 := d.setArb { d.arb with misses := 0 }
    match d.arb.focus with
    | some ⟨y, .lapsed⟩ => (d1.setArb { d1.arb with focus := some ⟨y, .active⟩ }).raiseFocus .recover (some y)
    | _ => d1
  | .stray => d.updSrc x SrcRun.stray
  | .unclassified | .discarded => d

/-- The outcome a TAP notice carries for a tap of the holder (R61). -/
def TapReport.outcome : TapReport → TapOutcome
  | .matched p => .matched p
  | .stray => .stray
  | .unclassified => .unclassified
  | .discarded => .ignored

/-- A tap of the holder is handed to the engine, and its report is taken (R50, R51). -/
def Dev.holderTap (d : Dev) (x : Src) (t : Time) : Dev × TapOutcome :=
  let r := d.engineTap t
  (r.1.heard x r.2, r.2.outcome)

/-- A tap takes focus: the change, the tap handed to the engine, its report, the FOCUS notice (R49, R55, R57, R58). -/
def Dev.tapTakes (d : Dev) (x : Src) (t : Time) (cause : FocusCause) (prev : Option (Time × BeatRef)) :
    Dev × TapOutcome :=
  let before := d.arb.holder
  let r := (d.takeFocus x prev).holderTap x t
  (r.1.raiseFocus cause before, .take cause)

/-! ## Windows (R50) -/

/-- The beat whose window a tap time lies in, if a window is open there: the beat at L, or the coming beat, which
will be the next to get a serial number (R50, R54). A coming beat has the position it would have if it were emitted now
(log 40). -/
def Dev.openWindow (d : Dev) (t0 : Time) : Option BeatRef :=
  let t := d.eng.notBefore t0
  match d.eng.st with
  | .idle | .hold .mark => none
  | .count | .run | .hold .point =>
    if d.inLate t then some ⟨d.eng.beatNo, d.eng.here⟩
    else if d.inEarly t then
      (comingBeat d.data.form d.eng).map fun x => ⟨d.eng.beatNo + 1, x.2⟩
    else none

/-! ## Claims (R54, R55) -/

/-- Whether the source `x` would take focus from the holder: the holder is LAPSED, or `x` has the better rank
(R55). -/
def Dev.outranks (d : Dev) (x : Src) (f : Focus) : Bool :=
  f.status == .lapsed || (d.data.srcs.get x).rank < (d.data.srcs.get f.src).rank

/-- A claim tap of `x` against a beat (R54), and the test of a complete claim (R55). A claim against a coming beat keeps
the position that beat has at the tap, though a vamp release may move the beat before it is emitted: the model's choice
(log 40). -/
def Dev.claimTap (d : Dev) (x : Src) (t : Time) (f : Focus) (b : BeatRef) : Dev × TapOutcome :=
  let c := d.data.engine.c
  let old := d.arb.srcs.get x
  let n := min c (old.claims + 1)
  let prev := if 2 ≤ c then (match old.claimTap, old.claimBeat with | some u, some v => some (u, v) | _, _ => none) else none
  let d := d.updSrc x fun r => { r with claims := n, claimBeat := some b, claimTap := some t }
  if n = c && d.outranks x f then d.tapTakes x t .claim prev
  else (d, .claim n)

/-- A tap of a source that is not the holder, while `f` holds focus: a release with a LAPSED holder (R58), a claim
tap, a stray or a tap only (R54). Where R54, R55 and R58 name one tap differently the model follows R58: in a POINT
hold a tap outside the window, with the pin set or in a LEAD entry, is a stray, and a tap that would complete a claim
while the holder is LAPSED is a RELEASE with no previous claim tap (log 11). -/
def Dev.rivalTap (d : Dev) (x : Src) (t : Time) (f : Focus) : Dev × TapOutcome :=
  let holding : Bool := match d.eng.st with | .hold _ => true | _ => false
  if holding && f.status == .lapsed && !d.arb.pin then d.tapTakes x t .release none
  else
    match d.openWindow t with
    | some b =>
      if d.arb.pin then (d, .ignored)
      else if (d.arb.srcs.get x).claimBeat.map BeatRef.no = some b.no then (d.updSrc x SrcRun.stray, .stray)
      else d.claimTap x t f b
    | none =>
      let stray : Bool :=
        match d.eng.st with
        | .idle | .hold .mark => false
        | .hold .point => true
        | .count | .run => !d.arb.pin && d.followNow
      if stray then (d.updSrc x SrcRun.stray, .stray) else (d, .ignored)

/-- A tap while there is no holder: the first-tap race (R57). -/
def Dev.raceTap (d : Dev) (x : Src) (t : Time) : Dev × TapOutcome :=
  let holding : Bool := match d.eng.st with | .hold _ => true | _ => false
  if (d.openWindow t).isSome || (holding && !d.arb.pin) then d.tapTakes x t .race none
  else
    let stray : Bool :=
      match d.eng.st with
      | .count | .run => d.followNow
      | .idle | .hold _ => false
    if stray then (d.updSrc x SrcRun.stray, .stray) else (d, .ignored)

/-- An accepted tap is routed by focus, and a TAP notice is raised (R50, R61). -/
def Dev.routeTap (d : Dev) (x : Src) (t : Time) : Dev :=
  let r :=
    match d.arb.focus with
    | none => d.raceTap x t
    | some f => if f.src = x then d.holderTap x t else d.rivalTap x t f
  r.1.raise (.tap x r.2 t)

/-! ## The tap front end (R47, R48) -/

/-- Whether an edge or TAP at a time is outside the debounce time (R47). The debounce is in milliseconds. -/
def accepts (lastTap : Option Time) (debounce : Nat) (t : Time) : Bool :=
  match lastTap with
  | none => true
  | some u => u + debounce * 1000 ≤ t

/-- An edge or TAP request tested against the debounce time: a tap, or a bounce (R47, R48). -/
def Dev.frontEnd (d : Dev) (x : Src) (t : Time) : Dev :=
  if accepts (d.arb.srcs.get x).lastTap (d.data.srcs.get x).debounce t then
    (d.updSrc x fun r => { r with taps := satSucc Config.counterTop r.taps, lastTap := some t }).routeTap x t
  else d.updSrc x fun r => { r with bounces := satSucc Config.counterTop r.bounces }

/-- Whether an edge select names a direction (R47). -/
def selects : Option EdgeSel → EdgeDir → Bool
  | some .rise, .rising | some .fall, .falling | some .both, _ => true
  | _, _ => false

/-! ## Window close (R52, R53) -/

/-- The close that comes first: the earliest due, the first emitted among equals (R29). -/
def firstClose : List Close → Option Close
  | [] => none
  | c :: cs =>
    match firstClose cs with
    | none => some c
    | some c' => if c'.due < c.due then some c' else some c

/-- The holder's part of a window close: a miss, and a lapse at the silence limit (R52). -/
def Dev.closeHolder (d : Dev) (c : Close) : Dev :=
  match d.arb.focus with
  | none => d
  | some f =>
    if c.follow && !c.matched then
      let n := satSucc 255 d.arb.misses
      let d := d.setArb { d.arb with misses := n }
      if d.data.engine.s ≤ n && f.status == .active then
        (d.setArb { d.arb with focus := some ⟨f.src, .lapsed⟩ }).raiseFocus .lapse (some f.src)
      else d
    else d

/-- The claims' part of a window close: a source other than the holder keeps its claim only if its claim beat is the
closing beat or a later one (R53). -/
def Dev.closeClaims (d : Dev) (c : Close) : Dev :=
  d.setArb
    { d.arb with
      srcs := d.arb.srcs.mapAll fun x r =>
        if d.arb.holder = some x then r
        else
          match r.claimBeat with
          | some b => if c.beat.no ≤ b.no then r else r.unclaim
          | none => r.unclaim }

/-! ## Pin, free and ARM (R59, R60) -/

/-- FOCUS.PIN (R59). -/
def Dev.pinFocus (d : Dev) (x : Src) : Dev :=
  let before := d.arb.holder
  let d := if before = some x then d else d.takeFocus x none
  (d.setArb { d.arb with pin := true }).raiseFocus .pin before

/-- FOCUS.FREE: the pin cleared, the holder kept; a notice when a set pin is cleared (R59, R61). -/
def Dev.freeFocus (d : Dev) : Dev :=
  let was := d.arb.pin
  let d := d.setArb { d.arb with pin := false }
  if was then d.raiseFocus .free d.arb.holder else d

/-- FOCUS.FREE CLEAR: the pin cleared and the holder removed; no notice when there was neither (R59, R61). -/
def Dev.clearFocus (d : Dev) : Dev :=
  let before := d.arb.holder
  let was := d.arb.pin
  let d := (d.setArb { d.arb with pin := false }).dropFocus
  if was || before.isSome then d.raiseFocus .clear before else d

/-- The focus at a taken ARM: cleared unless pinned; pinned, the other sources' claims are ended (R60). -/
def Dev.armFocus (d : Dev) : Dev :=
  if d.arb.pin then
    d.setArb
      { d.arb with srcs := d.arb.srcs.mapAll fun x r => if d.arb.holder = some x then r else r.unclaim }
  else
    let before := d.arb.holder
    let d := d.dropFocus
    if before.isSome then d.raiseFocus .clear before else d

/-- A new claim length lowers every claim count above it (R18). -/
def Arbiter.capClaims (a : Arbiter) (c : Nat) : Arbiter :=
  { a with srcs := a.srcs.mapAll fun _ r => { r with claims := min c r.claims } }

end Sys2Proof.Machine
end

