-- ==== Sys2Proof/Machine/Click.lean ====
section
/-! DEFINITION. The Room Table's alignment and the Click Generator's queues (spec 04). -/

namespace Sys2Proof.Machine

/-! ## Alignment (R63 to R67) -/

/-- The alignment computation (R64). -/
def align (s : RoomSet) (f : Nat) : RoomRun :=
  match s.out with
  | none => ⟨0, none, 0⟩
  | some _ =>
    if s.cr ≤ s.vr then
      if s.vr - s.cr ≤ Config.offsetTop then ⟨s.vr - s.cr, some 0, 0⟩
      else ⟨Config.offsetTop, some 0, s.vr - s.cr - Config.offsetTop⟩
    else
      let n := ceilDiv (s.cr - s.vr) f
      if n ≤ Config.delayTop then ⟨s.vr + n * f - s.cr, some n, 0⟩
      else ⟨0, some Config.delayTop, s.cr - s.vr - Config.delayTop * f⟩

/-- The computation is run for a room; an ALIGN notice when its short amount differs from `old` (R64, R65). -/
def Dev.alignRoom (old : Nat) (d : Dev) (r : Fin 4) : Dev :=
  let set := d.data.rooms[r]
  let run := align set d.data.std.frame
  let d := d.setRooms (d.rooms.set r run)
  if run.short = old then d else d.raise (.align r set run)

/-- The computation is run for a room against the amount it held (R65). -/
def Dev.realign (d : Dev) (r : Fin 4) : Dev := d.alignRoom d.rooms[r].short r

/-- The four rooms. -/
def allRooms : List (Fin 4) := [0, 1, 2, 3]

/-- The computation is run for all four rooms after a change of standard (R63, R143). -/
def Dev.realignAll (d : Dev) : Dev := allRooms.foldl Dev.realign d

/-- The computation is run for all four rooms at power-on, SHOW.LOAD and SHOW.ERASE, against amounts of 0 (R65). -/
def Dev.alignAfresh (d : Dev) : Dev := allRooms.foldl (Dev.alignRoom 0) d

/-! ## Clicks (R70 to R73) -/

/-- The eight lanes. -/
def allLanes : List (Fin 8) := [0, 1, 2, 3, 4, 5, 6, 7]

/-- A lane is sounding when both its mutes are OPEN (R68). -/
def sounding (s : LaneSet) (r : LaneRun) : Bool := s.mute == .opened && r.cueMute == .opened

/-- A lane's effective subdivision (R68). -/
def subdivision (s : LaneSet) (r : LaneRun) : Nat := r.cueSub.getD s.sub

/-- A click put in its place in the queue: by due time, behind those with the same due time (R70). -/
def insertClick (c : Click) : List Click → List Click
  | [] => [c]
  | x :: xs => if c.due < x.due then c :: x :: xs else x :: insertClick c xs

/-- A click queued, or dropped when the queue is full (R70). -/
def queueClick (q : List Click) (c : Click) : List Click :=
  if q.length < Config.clickCapacity then insertClick c q else q

/-- The main click of a beat mark: kind and level (R72). -/
def mainTone (k : BeatKind) (accent : Bool) (v : Nat) : ClickKind × Nat :=
  match k, accent with
  | .downbeat, true | .countDown, true => (.accent, v)
  | .downbeat, false | .beat, _ => (.beat, v - 2)
  | .countDown, false | .count, _ => (.count, v - 2)

/-- The main click of a beat mark in a lane (R71, R72). -/
def mainClick (m : BeatMark) (s : LaneSet) (oc : Nat) : Click :=
  let tone := mainTone m.kind s.accent s.level
  ⟨m.time + oc, m.time, tone.1, tone.2, m.pos⟩

/-- Subdivision click `j` of a beat mark in a lane (R71, R72). -/
def subClick (m : BeatMark) (s : LaneSet) (oc n j : Nat) : Click :=
  let e := m.time + j * m.period / n
  ⟨e + oc, e, .sub, s.level - 4, m.pos⟩

/-- The clicks a beat mark queues in a lane: the main click, and with no hold the subdivision clicks (R71). -/
def clicksOf (m : BeatMark) (s : LaneSet) (n oc : Nat) : List Click :=
  mainClick m s oc :: (if m.hold then [] else (List.range (n - 1)).map fun j => subClick m s oc n (j + 1))

/-- The subdivision clicks at or after a new beat removed (R73). -/
def prune (b : Time) (q : List Click) : List Click := q.filter fun c => !(c.kind == .sub && b ≤ c.engine)

/-- A lane's handling of a beat mark (R71, R73). -/
def laneBeat (m : BeatMark) (s : LaneSet) (oc : Nat) (r : LaneRun) : LaneRun :=
  let q := prune m.time r.queue
  { r with queue := if sounding s r then (clicksOf m s (subdivision s r) oc).foldl queueClick q else q }

/-- Whether beat marks are taken by the lanes and the cues in a show state (R71, R87). -/
def ShowState.playing : ShowState → Bool
  | .countIn | .running => true
  | .dark | .arming | .ready | .stopped | .done => false

/-- The click offset of a lane's room (R71). -/
def Dev.offset (d : Dev) (l : Fin 8) : Nat := d.rooms[d.data.lanes[l].room].oc

/-- A beat mark reaches the Click Generator, which judges it by the Show Controller's show state (R71, log 41). -/
def Dev.clickBeat (d : Dev) (m : BeatMark) : Dev :=
  if ShowState.playing d.ctl.state then
    d.setLanes (Vector.ofFn fun l : Fin 8 => laneBeat m d.data.lanes[l] (d.offset l) d.lanes[l])
  else d

/-- The head click of a lane comes due: it sounds and leaves the queue (R70). -/
def soundHead (now : Time) (r : LaneRun) : LaneRun :=
  match r.queue with
  | c :: cs => if c.due ≤ now then { r with queue := cs, out := some ⟨now, c⟩ } else r
  | [] => r

/-- Every lane's queue emptied (R75). -/
def Dev.emptyLanes (d : Dev) : Dev := d.setLanes (mapAll (fun r => { r with queue := [] }) d.lanes)

/-- Whether entry into a show state empties the lanes' queues (R75). -/
def ShowState.silent : ShowState → Bool
  | .stopped | .arming | .ready | .dark => true
  | .countIn | .running | .done => false

/-- A LANE action on a lane (R76). -/
def LaneRun.act (r : LaneRun) (m : Mute) (sub : Option Nat) : LaneRun :=
  { r with cueMute := m, cueSub := sub.or r.cueSub }

/-- The lanes' runtime at power-on, RESET, SHOW.LOAD and SHOW.ERASE: queues empty, cue mute OPEN, no cue subdivision
(R78). The output keeps what it sounded last. -/
def Dev.resetLanes (d : Dev) : Dev := d.setLanes (mapAll (fun r => { LaneRun.start with out := r.out }) d.lanes)

end Sys2Proof.Machine
end

