-- ==== Sys2Proof/Machine/CueOps.lean ====
section
/-! DEFINITION. The Cue Scheduler's shared operations: the list, the send points and conditions, the firing of
stages, and the marking at ARM and at an edit (spec 05). -/

namespace Sys2Proof.Machine

/-! ## The list and the runtime records -/

/-- List order: by position, then by number (R79). -/
def Cue.before (a b : Cue) : Bool := a.pos.before b.pos || (a.pos == b.pos && a.num < b.num)

/-- A cue put at its place in list order (R79). -/
def insertCue (c : Cue) : List Cue → List Cue
  | [] => [c]
  | x :: xs => if c.before x then c :: x :: xs else x :: insertCue c xs

/-- The cue with a number (R79). -/
def findCue (cs : List Cue) (n : Nat) : Option Cue := cs.find? fun c => c.num == n

/-- How many actions a cue list holds (R79). -/
def poolSize (cs : List Cue) : Nat := (cs.map fun c => c.actions.length).sum

/-- The PATCH actions of a cue, its SEND stage, in list order (R79). -/
def Cue.patches (c : Cue) : List PatchAction :=
  c.actions.filterMap fun a => match a with | .patch p => some p | _ => none

/-- The runtime of a cue with no record (R97). -/
def CueRun.start (n : Nat) : CueRun := ⟨n, none, none, .unspent, .unspent⟩

/-- The runtime record of a cue (R84). -/
def Sched.run (s : Sched) (n : Nat) : CueRun := (s.runs.find? fun r => r.num == n).getD (.start n)

/-- A cue's runtime record written. -/
def Sched.put (s : Sched) (r : CueRun) : Sched := { s with runs := r :: s.runs.filter fun x => x.num != r.num }

/-- A cue's runtime record removed. -/
def Sched.drop (s : Sched) (n : Nat) : Sched := { s with runs := s.runs.filter fun x => x.num != n }

/-- A stage's condition (R84). -/
def CueRun.cond (r : CueRun) : Stage → Cond
  | .send => r.sendCond
  | .atCue => r.atCond

/-- A stage's condition written. -/
def CueRun.setCond (r : CueRun) (st : Stage) (c : Cond) : CueRun :=
  match st with
  | .send => { r with sendCond := c }
  | .atCue => { r with atCond := c }

/-- The point of a stage: the send point, or the cue's position (R84). -/
def stagePoint (c : Cue) (r : CueRun) : Stage → Option TPos
  | .send => r.send
  | .atCue => some c.pos

/-- Whether a condition is PENDING, and its time (R84). -/
def Cond.time : Cond → Option Time
  | .pending t => some t
  | _ => none

/-- The next cue: the first whose AT stage is UNSPENT or PENDING (R84). -/
def Dev.nextCue (d : Dev) : Option Cue :=
  d.data.cues.find? fun c =>
    match (d.sched.run c.num).atCond with
    | .unspent | .pending _ => true
    | .fired | .passed => false

/-- The number of PENDING stages (R96). -/
def Dev.pendingStages (d : Dev) : Nat :=
  (d.data.cues.map fun c =>
    let r := d.sched.run c.num
    (if r.sendCond.time.isSome then 1 else 0) + (if r.atCond.time.isSome then 1 else 0)).sum

/-! ## Firing (R86, R89) -/

/-- A stage of a cue with its point, for the firing order (R89). -/
structure Due where
  point : TPos
  cue   : Cue
  stage : Stage

/-- The firing order: by point, then cue number, then SEND before AT (R89). -/
def Due.before (a b : Due) : Bool :=
  a.point.before b.point ||
    (a.point == b.point && (a.cue.num < b.cue.num ||
      (a.cue.num == b.cue.num && a.stage == .send && b.stage == .atCue)))

/-- A stage put at its place in firing order. -/
def insertDue (x : Due) : List Due → List Due
  | [] => [x]
  | y :: ys => if x.before y then x :: y :: ys else y :: insertDue x ys

/-- Stages in firing order (R89). -/
def sortDue (l : List Due) : List Due := l.foldr insertDue []

/-- The stages of the list for which a test of cue, record and stage holds, with their points, in firing order. A
stage with no point takes the cue's position. -/
def Dev.stagesWhere (d : Dev) (p : Cue → CueRun → Stage → Bool) : List Due :=
  sortDue (d.data.cues.flatMap fun c =>
    let r := d.sched.run c.num
    ([.send, .atCue] : List Stage).filterMap fun st =>
      if p c r st then some ⟨(stagePoint c r st).getD c.pos, c, st⟩ else none)

/-- What the late check is told of the SEND stage: a PENDING stage has not fired (R86). -/
def Cond.seen : Cond → SendSeen
  | .fired => .fired
  | .passed => .passed
  | .unspent | .pending _ => .unspent

/-- What a firing stage hands over: the actions in their order, and for the AT stage the late check (R86). -/
def stageHands (c : Cue) (r : CueRun) : Stage → List Instr
  | .send => c.patches.map fun p => .patchAction c.num p
  | .atCue =>
    (c.actions.filterMap fun a =>
      match a with
      | .patch _ => none
      | .note n => some (.noteAction n)
      | .lane l m s => some (.laneAction l m s)) ++ [.lateCheck c.num c.patches r.sendCond.seen]

/-- How many actions a stage hands over (R96). -/
def stageActions (c : Cue) : Stage → Nat
  | .send => c.patches.length
  | .atCue => c.actions.length - c.patches.length

/-- A stage fires: hand-over, FIRED, and a CUE notice except for an empty SEND stage (R86, R96). -/
def Dev.fireStage (d : Dev) (how : FireHow) (c : Cue) (st : Stage) : Dev :=
  let r := d.sched.run c.num
  let d := (d.hand (stageHands c r st)).setSched (d.sched.put (r.setCond st .fired))
  if st = .send ∧ c.patches = [] then d
  else d.raise (.cue c.num st how (stagePoint c r st) (stageActions c st) d.clock)

/-- Stages fire one after the other (R89). -/
def Dev.fireAll (d : Dev) (how : FireHow) (l : List Due) : Dev := l.foldl (fun d x => d.fireStage how x.cue x.stage) d

/-! ## The beat mark in the run (R87, R88) -/

/-- The pending time of a tick on a beat (R87). -/
def tickTime (b : Time) (period k : Nat) : Time := b + k * period / 480

/-- Whether a stage is UNSPENT and its cue PLACED with the stage's point on a beat (R87). -/
def metAt (x : Pos) (c : Cue) (r : CueRun) (st : Stage) : Option TPos :=
  if r.cond st = .unspent ∧ r.placement = some .placed then
    match stagePoint c r st with
    | some p => if p.toPos = x then some p else none
    | none => none
  else none

/-- The stages met on a beat at a tick above 0 become PENDING (R87). -/
def Dev.setPending (d : Dev) (m : BeatMark) : Dev :=
  let l := d.stagesWhere fun c r st => match metAt m.pos c r st with | some p => p.tick != 0 | none => false
  l.foldl (fun d x =>
    d.setSched (d.sched.put ((d.sched.run x.cue.num).setCond x.stage (.pending (tickTime m.time m.period x.point.tick))))) d

/-- The PENDING stages whose time has been reached fire, each on its tick (R88). -/
def Dev.fireTicks (d : Dev) : Dev :=
  d.fireAll .tick (d.stagesWhere fun _ r st => match (r.cond st).time with | some t => t ≤ d.clock | none => false)

/-- A beat mark in the run: the overtaken stages, the stages at the beat, the new pending times, the cursor, and any
pending time already passed (R87, R88). The mark is judged by the Show Controller's show state (log 41).
A stage whose pending time has passed when its own beat mark sets it fires with TICK in its CUE notice, not BEAT: the
model's choice (log 43). -/
def Dev.cueBeat (d : Dev) (m : BeatMark) : Dev :=
  if m.count.isNone && ShowState.playing d.ctl.state then
    let d := d.fireAll .overtaken (d.stagesWhere fun _ r st => (r.cond st).time.isSome)
    let d := d.fireAll .beat
      (d.stagesWhere fun c r st => match metAt m.pos c r st with | some p => p.tick == 0 | none => false)
    let d := d.setPending m
    let d := d.setSched
      { d.sched with ctx := d.sched.ctx.map fun x => { x with cursor := some ⟨m.pos, m.time, m.period⟩ } }
    d.fireTicks
  else d

/-! ## Marking (R85, R92 to R94) -/

/-- The send point and placement of a cue over a covered form (R85). -/
def place (form : List FormEntry) (c : Cue) : Option TPos × Placement :=
  if inForm form c.pos.toPos then (some (leadWalk form c.pos c.lead), .placed) else (none, .unplaced)

/-- A cue's record as an ARM at M marks it (R85, R92). -/
def markAtArm (form : List FormEntry) (m : Pos) (c : Cue) : CueRun :=
  match place form c with
  | (none, pl) => ⟨c.num, none, some pl, .passed, .passed⟩
  | (some s, pl) =>
    ⟨c.num, some s, some pl, if s.upTo m.toT then .passed else .unspent,
      if c.pos.before m.toT then .passed else .unspent⟩

/-- The marking at a taken ARM, with a CUE notice for each unplaced cue (R92, R96). -/
def Dev.markCues (d : Dev) (m : Pos) : Dev :=
  let runs := d.data.cues.map (markAtArm d.data.form m)
  let d := d.setSched ⟨runs, [], some ⟨m, none⟩⟩
  d.raiseAll (d.data.cues.filterMap fun c =>
    if (place d.data.form c).2 = .unplaced then some (.cueUnplaced c.num c.pos) else none)

/-- The condition of a stage written during a run, by its point (R93). -/
def editCond (now : Time) (x : RunCtx) (p : TPos) : Cond :=
  match x.cursor with
  | none => if p.before x.mark.toT then .passed else .unspent
  | some c =>
    if p.toPos = c.pos then
      if p.tick = 0 then .passed
      else
        let t := tickTime c.time c.period p.tick
        if t ≤ now then .passed else .pending t
    else if p.before c.pos.toT then .passed else .unspent

/-- The position an EDIT notice carries of a run: the cursor's, or M (R94). -/
def RunCtx.where_ (x : RunCtx) : Pos := match x.cursor with | some c => c.pos | none => x.mark

/-- The record of a written cue, and its EDIT notices in order: KEPT for the stages in `fired`, then UNPLACED or
PASSED (R82, R93, R94). A KEPT notice carries the point of the written cue's stage, not of the replaced one's, and an
UNPLACED notice, which names both stages, carries NONE: the model's choices (log 34). -/
def markEdited (form : List FormEntry) (now : Time) (ctx : Option RunCtx) (c : Cue) (fired : List Stage) :
    CueRun × List Notice :=
  let whereNow := ctx.map RunCtx.where_
  match ctx with
  | none =>
    let r : CueRun := ⟨c.num, none, none, .unspent, .unspent⟩
    let r' := fired.foldl (fun r st => r.setCond st .fired) r
    (r', fired.map fun st => .edit c.num [st] .kept (stagePoint c r st) whereNow)
  | some x =>
    let pl := place form c
    let cond (st : Stage) : Cond :=
      match pl.1 with
      | none => .passed
      | some s => editCond now x (match st with | .send => s | .atCue => c.pos)
    let r : CueRun := ⟨c.num, pl.1, some pl.2, cond .send, cond .atCue⟩
    let r' := fired.foldl (fun r st => r.setCond st .fired) r
    let kept := fired.map fun st => Notice.edit c.num [st] .kept (stagePoint c r st) whereNow
    let others :=
      if pl.2 = .unplaced then [Notice.edit c.num [.send, .atCue] .unplaced none whereNow]
      else
        ([.send, .atCue] : List Stage).filterMap fun st =>
          if r'.cond st = .passed then some (.edit c.num [st] .passed (stagePoint c r st) whereNow) else none
    (r', kept ++ others)

/-- The stages of a number that are FIRED: in the list, or recorded as fired before deletion (R83, R94). -/
def Dev.firedStages (d : Dev) (n : Nat) : List Stage :=
  ([.send, .atCue] : List Stage).filter fun st =>
    (d.sched.run n).cond st == .fired || d.sched.deleted.contains ⟨n, st⟩

/-- A cue written into the list and marked (R82, R93, R94). -/
def Dev.putCue (d : Dev) (c : Cue) : Dev :=
  let fired := d.firedStages c.num
  let x := markEdited d.data.form d.clock d.sched.ctx c fired
  let cues := insertCue c (d.data.cues.filter fun y => y.num != c.num)
  let d := d.setData { d.data with cues := cues }
  let d := d.setSched { (d.sched.put x.1) with deleted := d.sched.deleted.filter fun s => s.num != c.num }
  d.raiseAll x.2

/-- A cue removed: its FIRED stages recorded, its PENDING stages dropped with a notice (R83, R94). -/
def Dev.deleteCue (d : Dev) (c : Cue) : Dev :=
  let r := d.sched.run c.num
  let stages : List Stage := [.send, .atCue]
  let fired := (stages.filter fun st => r.cond st == .fired).map fun st => StageRef.mk c.num st
  let dropped := stages.filter fun st => (r.cond st).time.isSome
  let whereNow := d.sched.ctx.map RunCtx.where_
  let d := d.setData { d.data with cues := d.data.cues.filter fun y => y.num != c.num }
  let d := d.setSched { (d.sched.drop c.num) with deleted := d.sched.deleted ++ fired }
  d.raiseAll (dropped.map fun st => .edit c.num [st] .dropped (stagePoint c r st) whereNow)

/-- Entry into STOPPED at the Cue Scheduler: PENDING stages back to UNSPENT, no run context (R91). -/
def Sched.stopped (s : Sched) : Sched :=
  let back (c : Cond) : Cond := if c.time.isSome then .unspent else c
  { s with
    runs := s.runs.map fun r => { r with sendCond := back r.sendCond, atCond := back r.atCond }
    ctx := none }

/-! ## What the chases read -/

/-- Cues in list order with the position before M that are placed, by the marking of the same ARM (R77, R147). -/
def Dev.cuesBefore (d : Dev) (m : Pos) : List Cue :=
  d.data.cues.filter fun c => c.pos.before m.toT && (d.sched.run c.num).placement != some .unplaced

/-- The chase of a lane: the last mute and the last subdivision given before M (R77). -/
def Dev.chaseLane (d : Dev) (m : Pos) (l : Fin 8) : LaneRun :=
  let acts := (d.cuesBefore m).flatMap fun c => c.actions
  acts.foldl (fun r a =>
    match a with
    | .lane k mu s => if k = l then r.act mu s else r
    | _ => r) { d.lanes[l] with cueMute := .opened, cueSub := none }

/-- Every lane chased (R77). -/
def Dev.chaseLanes (d : Dev) (m : Pos) : Dev := d.setLanes (Vector.ofFn fun l : Fin 8 => d.chaseLane m l)

/-- The chase of the current note: the last NOTE action before M, else empty (R147). -/
def Dev.chaseNote (d : Dev) (m : Pos) : Option (Fin 64) :=
  let acts := (d.cuesBefore m).flatMap fun c => c.actions
  acts.foldl (fun r a => match a with | .note n => n | _ => r) none

end Sys2Proof.Machine
end

