-- ==== Sys2Proof/Machine/SlotOps.lean ====
section
/-! DEFINITION. The Slot Manager's shared operations: filters, comparison, new desired values, withdrawal, the chase
computation and the chase pending count (spec 06). -/

namespace Sys2Proof.Machine

/-- Whether a slot's filter accepts a part code (R99). -/
def SlotSet.accepts (s : SlotSet) (part : BitVec 12) : Bool :=
  match s.filter with
  | some f => (part ^^^ f.code) &&& ~~~f.mask == 0#12
  | none => false

/-- Whether a slot needs a load (R102). -/
def SlotRun.needsLoad (r : SlotRun) : Bool := r.desired.isSome && r.desired != r.confirmed

/-- A slot's request fields at rest: IDLE, no request patch, no attempt, no deadline, not in flight. -/
def SlotRun.idled (r : SlotRun) : SlotRun :=
  { r with req := .idle, reqPatch := none, attempt := none, inFlight := false, deadline := none }

/-- A slot appended to the tail of the patch queue (R102). -/
def Dev.enqueue (d : Dev) (i : SlotId) (patch : Nat) : Dev :=
  d.setLink { d.link with queue := d.link.queue ++ [⟨i, patch⟩] }

/-- A slot's entry withdrawn from the patch queue (R102). -/
def Dev.unqueue (d : Dev) (i : SlotId) : Dev :=
  d.setLink { d.link with queue := d.link.queue.filter fun e => e.slot != i }

/-- The patch of a slot's entry replaced in place (R102). -/
def Dev.requeue (d : Dev) (i : SlotId) (patch : Nat) : Dev :=
  d.setLink { d.link with queue := d.link.queue.map fun e => if e.slot = i then { e with patch := patch } else e }

/-- A slot QUEUED at the tail for its desired patch at an attempt (R102, R104, R107). -/
def Dev.queueSlot (d : Dev) (i : SlotId) (attempt : Nat) : Dev :=
  match (d.slot i).desired with
  | some p =>
    (d.updSlot i fun r =>
      { r with req := .queued, reqPatch := some p, attempt := some attempt, inFlight := false, deadline := none }).enqueue i p
  | none => d

/-- An IDLE slot compares: QUEUED at attempt 1 when it needs a load, is present and its station is joined (R102). -/
def Dev.compare (d : Dev) (i : SlotId) : Dev :=
  let r := d.slot i
  if r.needsLoad && r.present && d.joined i.station then d.queueSlot i 1 else d

/-- A slot becomes IDLE, its entry withdrawn, and compares. -/
def Dev.idleCompare (d : Dev) (i : SlotId) : Dev := ((d.unqueue i).updSlot i SlotRun.idled).compare i

/-- A new desired value reaches a slot, which acts by its request state (R103). -/
def Dev.newDesired (d : Dev) (i : SlotId) (p : Option Nat) : Dev :=
  let d := d.updSlot i fun r => { r with desired := p }
  let r := d.slot i
  match r.req with
  | .idle | .fault | .withheld => (d.updSlot i SlotRun.idled).compare i
  | .queued =>
    if r.inFlight then d
    else
      match r.needsLoad, p with
      | true, some q => (d.requeue i q).updSlot i fun r => { r with reqPatch := some q }
      | _, _ => (d.unqueue i).updSlot i SlotRun.idled
  | .sent => d

/-- A slot goes back to the queue after a failed sending, or becomes IDLE when it needs no load (R104, R107). -/
def Dev.retrySlot (d : Dev) (i : SlotId) (attempt : Nat) : Dev :=
  if (d.slot i).needsLoad then d.queueSlot i attempt else d.updSlot i SlotRun.idled

/-- A PATCH notice of a slot as it stands (R116). -/
def Dev.raisePatch (d : Dev) (cause : PatchCause) (i : SlotId) : Dev :=
  d.raise (.patch cause i (d.slot i) (d.station i.station).state d.clock)

/-! ## The chase pending count (R114) -/

/-- The chase pending count: the number of slots whose chase flag is set (R114). -/
def chaseCount (slots : Vector SlotRun 64) : Nat := slots.toList.countP fun r => r.chase

/-- A flagged slot that is IDLE or FAULT comes to rest (R114). -/
def SlotRun.rest (r : SlotRun) : SlotRun :=
  if r.req = .idle ∨ r.req = .fault then { r with chase := false } else r

/-- The end of an event in the Slot Manager: slots come to rest, and a count that changed from `n` is handed to the
Show Controller (R114, R155). -/
def Dev.restSlots (d : Dev) (n : Nat) : Dev :=
  let d := d.setSlots (mapAll SlotRun.rest d.slots)
  if chaseCount d.slots = n then d else d.hand [.chasePendingCount (chaseCount d.slots)]

/-- An event in the Slot Manager (R114). -/
def Dev.slotEvent (d : Dev) (f : Dev → Dev) : Dev := (f d).restSlots (chaseCount d.slots)

/-- The chase flags cleared and the count 0, with counts not yet taken withdrawn: the armed mark is cleared (R115,
log 9). -/
def Dev.clearChase (d : Dev) : Dev :=
  let d := d.setSlots (mapAll (fun r => { r with chase := false }) d.slots)
  (d.withdraw isCount).setCtl { d.ctl with count := 0 }

/-! ## The chase (R113, R114) -/

/-- A PATCH action with its place in send order (R113). -/
structure SentAction where
  send : TPos
  num  : Nat
  act  : PatchAction

/-- Send order: by send point, then cue number (R113). -/
def SentAction.before (a b : SentAction) : Bool := a.send.before b.send || (a.send == b.send && a.num < b.num)

/-- An action put behind those before it and those of its own cue. -/
def insertSent (x : SentAction) : List SentAction → List SentAction
  | [] => [x]
  | y :: ys => if x.before y then x :: y :: ys else y :: insertSent x ys

/-- Every PATCH action of every cue that has a send point, in send order (R113). -/
def Dev.sendOrder (d : Dev) : List SentAction :=
  (d.data.cues.flatMap fun c =>
    match (d.sched.run c.num).send with
    | some s => c.patches.map fun a => ⟨s, c.num, a⟩
    | none => []).foldl (fun l x => insertSent x l) []

/-- The chase computation at a point Q (R113). -/
def Dev.chaseAt (d : Dev) (q : Pos) (i : SlotId) : Option Nat :=
  let set := d.slotSet i
  let hits := (d.sendOrder).filter fun x => x.send.upTo q.toT && set.accepts x.act.part
  match hits.getLast? with
  | some x => some x.act.patch
  | none => set.home.or (d.slot i).desired

/-- Whether a chased slot is flagged: it is present, its station joined, QUEUED or SENT, and it needs a load (R114). -/
def Dev.chaseFlag (d : Dev) (i : SlotId) : Bool :=
  let r := d.slot i
  r.present && d.joined i.station && (r.req == .queued || r.req == .sent) && r.needsLoad

/-- One slot chased: the result handed to it, and its flag set when it now loads (R114). -/
def Dev.chaseSlot (q : Pos) (d : Dev) (i : SlotId) : Dev :=
  let d := d.newDesired i (d.chaseAt q i)
  if d.chaseFlag i then d.updSlot i fun r => { r with chase := true } else d

/-- The chase at a taken ARM: flags cleared, every slot chased in slot order, and the count handed back to the Show
Controller within the ARM (R114, R153). -/
def Dev.chaseSlots (d : Dev) (m : Pos) : Dev :=
  let d := allSlots.foldl (Dev.chaseSlot m) d.clearChase
  d.setCtl { d.ctl with count := chaseCount d.slots }

/-- The chase point of a filter recomputation (R101). -/
def Dev.chasePoint (d : Dev) : Option Pos :=
  let m := d.ctl.armed.map fun a => a.mark.pos
  match d.ctl.state with
  | .arming | .ready | .stopped => m
  | .countIn =>
    match d.eng.st with
    | .count | .hold .mark => m
    | .idle | .run | .hold .point => d.eng.pos
  | .running => d.eng.pos
  | .dark | .done => none

/-- The recomputation of a slot after a filter or home change (R101). -/
def Dev.recompute (d : Dev) (i : SlotId) : Dev :=
  match d.chasePoint with
  | some q => d.newDesired i (d.chaseAt q i)
  | none => d

/-! ## Stations and stops (R108, R110, R111) -/

/-- A slot of a station that has gone OFF (R110). -/
def Dev.offSlot (d : Dev) (i : SlotId) : Dev :=
  match (d.slot i).req with
  | .queued | .sent | .withheld => (d.unqueue i).updSlot i SlotRun.idled
  | .idle | .fault => d

/-- A slot beyond the declared count: not present, IDLE, its desired kept (R111, log 18). -/
def Dev.absentSlot (d : Dev) (i : SlotId) : Dev :=
  (d.unqueue i).updSlot i fun r => { r.idled with present := false }

/-- A present slot at a join: confirmed NONE; a waiting entry kept in place for desired, a request in flight left as
it is, anything else IDLE and compared (R111). -/
def Dev.resyncSlot (d : Dev) (i : SlotId) : Dev :=
  match (d.slot i).req with
  | .queued =>
    if (d.slot i).inFlight then d
    else
      match (d.slot i).desired with
      | some p => (d.requeue i p).updSlot i fun r => { r with reqPatch := some p, attempt := some 1 }
      | none => d
  | .idle | .sent | .fault | .withheld => (d.updSlot i SlotRun.idled).compare i

/-- A station joins with a slot count (R111). -/
def Dev.resync (d : Dev) (n : Fin 16) (k : Nat) : Dev :=
  let here := (stationSlots n).filter fun i => i.letter.val < k
  let gone := (stationSlots n).filter fun i => !(i.letter.val < k)
  let d := gone.foldl Dev.absentSlot d
  let d := here.foldl (fun d i => d.updSlot i fun r => { r with present := true, confirmed := none }) d
  here.foldl Dev.resyncSlot d

/-- A slot at the entry into STOPPED: QUEUED and not in flight becomes WITHHELD (R108). -/
def Dev.withholdSlot (d : Dev) (i : SlotId) : Dev :=
  if (d.slot i).req = .queued ∧ (d.slot i).inFlight = false then
    (d.unqueue i).updSlot i fun r => { r with req := .withheld }
  else d

/-- The slots at power-on and RESET (R117). -/
def freshSlots : Vector SlotRun 64 := Vector.replicate 64 .start

/-- A slot at SHOW.LOAD and SHOW.ERASE: desired NONE, confirmed and presence kept, no request (R117). -/
def SlotRun.loaded (r : SlotRun) : SlotRun :=
  { SlotRun.start with present := r.present, confirmed := r.confirmed }

end Sys2Proof.Machine
end

