-- ==== Sys2Proof/Machine/LinkOps.lean ====
section
/-! DEFINITION. The Link Controller's shared operations: check words and frame layouts, the transmit arbiter, station
health, and the reply block (spec 07, spec 11 section 11.2). -/

namespace Sys2Proof

namespace Machine

/-! ## Bytes, check words, frames (R119, R185, R186) -/

/-- A number as two bytes, high byte first (R185). -/
def bytes2 (n : Nat) : List Byte := [BitVec.ofNat 8 (n / 256), BitVec.ofNat 8 n]

/-- Two bytes as a number, high byte first (R185). -/
def word2 (hi lo : Byte) : Nat := hi.toNat * 256 + lo.toNat

/-- The sum of bytes as unsigned numbers (R186). -/
def byteSum (bs : List Byte) : Nat := (bs.map BitVec.toNat).sum

/-- The check word: the number that makes the sum 0 modulo 65 536 (R119, R186). -/
def checkWord (bs : List Byte) : Nat := (65536 - byteSum bs % 65536) % 65536

/-- Bytes with their check word behind them (R185). -/
def checked (bs : List Byte) : List Byte := bs ++ bytes2 (checkWord bs)

/-- Whether bytes and the check word behind them sum to 0 modulo 65 536 (R120, R186). -/
def sumOk (bs : List Byte) (hi lo : Byte) : Bool := (byteSum bs + word2 hi lo) % 65536 == 0

/-- A station's address, 1..16 (R185). -/
def address (n : Fin 16) : Byte := BitVec.ofNat 8 (n.val + 1)

end Machine

/-- The code of a show state in a BEACON (R185). -/
def ShowState.code : ShowState → Nat
  | .dark => 0
  | .arming => 1
  | .ready => 2
  | .countIn => 3
  | .running => 4
  | .stopped => 5
  | .done => 6

namespace Machine

/-- A PATCH frame's bytes before its check word (R185). -/
def patchBytes (i : SlotId) (patch : Nat) : List Byte :=
  [2#8, address i.station, BitVec.ofNat 8 i.letter.val] ++ bytes2 patch

/-- A POLL frame's bytes before its check word (R185). -/
def pollBytes (s : Fin 16) : List Byte := [3#8, 0#8, address s]

/-- A STOP frame's bytes before its check word (R185). -/
def stopBytes (episode : Nat) : List Byte := [4#8, 0#8] ++ bytes2 episode

/-- A CLEAR frame's bytes before its check word (R185). -/
def clearBytes (n : Fin 16) : List Byte := [5#8, address n]

/-- A BEACON frame's bytes before its check word, its fields read from their owners now (R123, R185). -/
def Dev.beaconBytes (d : Dev) : List Byte :=
  let p := d.eng.pos.getD ⟨0, 0⟩
  [1#8, 0#8, BitVec.ofNat 8 d.link.epoch, BitVec.ofNat 8 (ShowState.code d.ctl.state)] ++ bytes2 p.bar ++
    [BitVec.ofNat 8 p.beat, if d.ctl.state = .stopped then 1#8 else 0#8, BitVec.ofNat 8 d.eng.counter] ++
    bytes2 (tempoShown d.eng.period)

/-- How a status byte is read (R185, R186). -/
def readStatus (b : Byte) : FrameStatus :=
  if b = 0x3C#8 then .ack
  else if b = 0x0F#8 then .retry
  else if b = 0xFF#8 then .silent
  else .check

/-- The status of a broadcast: RETRY is taken as SILENT (R120). -/
def broadcastStatus (b : Byte) : FrameStatus :=
  match readStatus b with
  | .retry => .silent
  | s => s

/-! ## The transmit arbiter (R121, R122) -/

/-- Whether a period has passed since a start (R122). -/
def dueSince (start : Option Time) (period now : Time) : Bool :=
  match start with
  | none => true
  | some t => t + period ≤ now

/-- A POLL is due (R122). -/
def Dev.pollIsDue (d : Dev) : Bool := dueSince d.link.lastPoll Config.pollPeriod d.clock

/-- A BEACON is due (R122). -/
def Dev.beaconIsDue (d : Dev) : Bool := dueSince d.link.lastBeacon Config.beaconPeriod d.clock

/-- A frame is put on the line, tagged with the current epoch (R118, R119). -/
def Dev.putFrame (d : Dev) (k : FrameKind) (bs : List Byte) : Dev :=
  d.setLink { d.link with line := some ⟨k, d.link.epoch, checked bs⟩ }

/-- The first READY station of the CLEAR list (R121). -/
def Link.readyClear (l : Link) : Option (Fin 16) := (l.clears.find? fun c => c.ready).map fun c => c.station

/-- A POLL start counts toward every OFF station's quarantine (R127, R133). -/
def Station.pollStarted (r : Station) : Station :=
  if r.state = .off then { r with polls := satSucc Config.quarantinePolls r.polls } else r

/-- A STOP frame starts (R125). -/
def Dev.startStop (d : Dev) (p : StopPending) : Dev :=
  (d.setLink { d.link with stopPending := some { p with sends := p.sends + 1 } }).putFrame (.stop p.episode)
    (stopBytes p.episode)

/-- A CLEAR frame starts (R126). -/
def Dev.startClear (d : Dev) (n : Fin 16) : Dev := d.putFrame (.clear n) (clearBytes n)

/-- A POLL frame starts (R122, R127). -/
def Dev.startPoll (d : Dev) : Dev :=
  (d.setLink
    { d.link with
      lastPoll := some d.clock
      stations := mapAll Station.pollStarted d.link.stations }).putFrame .poll (pollBytes d.link.rotation)

/-- The entry a PATCH frame would start from: the first whose station is not OFF. An OFF station's entries stand in the
queue only until the Slot Manager has taken STATION_OFF_SLOTS, and no PATCH frame is addressed to it meanwhile (R121,
R124, R132, log 30). -/
def Dev.patchEntry (d : Dev) : Option QueueEntry :=
  d.link.queue.find? fun e => (d.station e.slot.station).state != .off

/-- A PATCH frame starts from an entry of the patch queue: the entry leaves, and its slot is in flight (R102, R124). -/
def Dev.startPatch (d : Dev) (e : QueueEntry) : Dev :=
  ((d.setLink { d.link with queue := d.link.queue.erase e }).updSlot e.slot fun r => { r with inFlight := true }).putFrame
    (.patch e.slot e.patch) (patchBytes e.slot e.patch)

/-- A BEACON frame starts (R122, R123). -/
def Dev.startBeacon (d : Dev) : Dev :=
  (d.setLink { d.link with lastBeacon := some d.clock }).putFrame .beacon d.beaconBytes

/-- Whether an event is the outcome of a PATCH frame on its way to the Slot Manager. -/
def isOutcome : Instr → Bool
  | .patchOutcome _ _ _ => true
  | _ => false

/-- Whether the transmit arbiter may choose: the line is IDLE, and the last frame's completion has been taken, by the
Slot Manager too when it was a PATCH (R121, R124, log 6). So no frame starts between a PATCH completion and its outcome,
and the outcome meets the slot's in-flight flag as that frame left it (R104). -/
def Dev.lineFree (d : Dev) : Bool := d.link.line.isNone && !d.handovers.any isOutcome

/-- The transmit arbiter: with the line free the first eligible kind starts (R121). Kinds that become eligible at one
instant on an IDLE line are ranked too, where the rule lets either be taken first: the model's choice (log 37). -/
def Dev.startFrame (d : Dev) : Dev :=
  if d.lineFree then
    match d.link.stopPending with
    | some p => d.startStop p
    | none =>
      match d.link.readyClear with
      | some n => d.startClear n
      | none =>
        if d.pollIsDue then d.startPoll
        else
          match d.patchEntry with
          | some e => d.startPatch e
          | none => if d.beaconIsDue then d.startBeacon else d
  else d

/-! ## Station health (R131 to R133) -/

/-- A STATION notice of a station as it stands (R136). -/
def Dev.raiseStation (d : Dev) (cause : StationCause) (n : Fin 16) (before : Health) : Dev :=
  d.raise (.station cause n before (d.station n) d.clock)

/-- A station goes OFF (R132). -/
def Dev.stationOff (d : Dev) (n : Fin 16) (before : Health) : Dev :=
  let d := d.updStation n fun r => { r with state := .off, polls := 0 }
  let d := d.setLink { d.link with clears := d.link.clears.filter fun c => c.station != n }
  (d.hand [.stationOffSlots n]).raiseStation .off n before

/-- The state of a station that is not OFF follows its fault count (R131). -/
def Dev.followFaults (d : Dev) (n : Fin 16) : Dev :=
  let r := d.station n
  match r.state with
  | .off => d
  | .absent => if r.faults = Config.offCount then d.stationOff n .absent else d
  | .active =>
    if r.faults = Config.offCount then d.stationOff n .active
    else if Config.warnCount ≤ r.faults then
      (d.updStation n fun r => { r with state := .warn }).raiseStation .warn n .active
    else d
  | .warn =>
    if r.faults = Config.offCount then d.stationOff n .warn
    else if r.faults < Config.warnCount then
      (d.updStation n fun r => { r with state := .active }).raiseStation .active n .warn
    else d

/-- A failure of a station: + 8, with its cause (R131). -/
def Dev.fault (d : Dev) (n : Fin 16) (e : LinkError) : Dev :=
  if (d.station n).state = .off then d
  else
    (d.updStation n fun r => { r with faults := min Config.offCount (r.faults + 8), lastError := some e }).followFaults n

/-- A success of a station: - 1, not below 0 (R131). -/
def Dev.success (d : Dev) (n : Fin 16) : Dev :=
  if (d.station n).state = .off then d
  else (d.updStation n fun r => { r with faults := r.faults - 1 }).followFaults n

/-- The status of a frame addressed to a station counts toward its health (R131). -/
def Dev.countStatus (d : Dev) (n : Fin 16) (s : FrameStatus) : Dev :=
  match s with
  | .ack => d.success n
  | .retry => d
  | .check => d.fault n .check
  | .silent => d.fault n .silent

/-- A HELLO joins a station (R133). -/
def Dev.joinStation (d : Dev) (n : Fin 16) (k : Nat) : Dev :=
  let before := (d.station n).state
  let d := d.updStation n fun r => { r with state := .active, faults := 0, polls := 0, slotCount := k }
  (d.hand [.helloResync n k]).raiseStation .join n before

/-! ## The reply block (R128, R129, R185, R187) -/

/-- A report of a station (R128). -/
inductive Report
  | none
  | hello (k : Nat)
  | applied (letter : Fin 4) (patch : Nat) (result : ApplyResult)
  | panic
  | vampoutReport
  deriving DecidableEq, Repr

/-- What a reply block says (R187): it fails its check or its address, it is a reply of unknown kind, or a report. -/
inductive Block
  | bad
  | unknown (n : Fin 16)
  | report (n : Fin 16) (r : Report)
  deriving DecidableEq, Repr

/-- The report of a block that passed its check (R185, R187). -/
def readReport (kind b3 b4 b5 b6 : Byte) : Option Report :=
  match kind.toNat with
  | 0 => some .none
  | 1 => if 1 ≤ b3.toNat ∧ b3.toNat ≤ 4 then some (.hello b3.toNat) else none
  | 2 =>
    if h : b3.toNat < 4 then
      let p := word2 b4 b5
      if p ≤ Config.patchTop then
        match b6.toNat with
        | 0 => some (.applied ⟨b3.toNat, h⟩ p .ok)
        | 1 => some (.applied ⟨b3.toNat, h⟩ p .refused)
        | _ => none
      else none
    else none
  | 3 => some .panic
  | 4 => some .vampoutReport
  | _ => none

/-- The eight bytes of a reply block read (R185, R187). -/
def readBlock (bs : List Byte) : Block :=
  match bs with
  | [a, k, b3, b4, b5, b6, hi, lo] =>
    if sumOk [a, k, b3, b4, b5, b6] hi lo then
      if h : 1 ≤ a.toNat ∧ a.toNat ≤ 16 then
        let n : Fin 16 := ⟨a.toNat - 1, by omega⟩
        match readReport k b3 b4 b5 b6 with
        | some r => .report n r
        | none => .unknown n
      else .bad
    else .bad
  | _ => .bad

/-- A report handed on, or ignored as stale, by its kind and the station's state (R129). -/
def Dev.routeReport (d : Dev) (n : Fin 16) (r : Report) : Dev :=
  let s := d.station n
  match r with
  | .none => d
  | .panic => d.hand [.panic n]
  | .hello k =>
    if s.state = .off ∧ s.polls ≠ Config.quarantinePolls then d.addStale n else d.joinStation n k
  | .applied l p res => if s.state = .off then d.addStale n else d.hand [.appliedReport ⟨n, l⟩ p res]
  | .vampoutReport =>
    if d.joined n = true ∧ d.data.perms[n] = .allowed then d.hand [.vampoutReport n] else d.addStale n

/-- The rotation start moves past a winner (R127). -/
def Dev.rotate (d : Dev) (n : Fin 16) : Dev := d.setLink { d.link with rotation := n + 1 }

/-- A reply block of an ACK POLL is taken (R127, R128). -/
def Dev.takeBlock (d : Dev) (bs : List Byte) : Dev :=
  match readBlock bs with
  | .bad => d
  | .unknown n => (d.rotate n).fault n .unknownReport
  | .report n r => ((d.rotate n).success n).routeReport n r

/-- WAITING CLEARs become READY at a POLL completion (R126). -/
def Dev.wakeClears (d : Dev) : Dev :=
  d.setLink { d.link with clears := d.link.clears.map fun c => { c with ready := true } }

/-- A CLEAR for a station is taken (R126). -/
def Dev.takeClear (d : Dev) (n : Fin 16) : Dev :=
  if (d.station n).state = .off then d
  else if d.link.clears.any fun c => c.station == n then
    d.setLink { d.link with clears := d.link.clears.map fun c => if c.station = n then { c with ready := true } else c }
  else d.setLink { d.link with clears := d.link.clears ++ [⟨n, true⟩] }

/-- The line becomes IDLE at a transfer complete (R118). -/
def Dev.freeLine (d : Dev) : Dev := d.setLink { d.link with line := none }

end Machine

end Sys2Proof
end

