-- ==== Sys2Proof/Machine/Spell.lean ====
section
/-! DEFINITION. How values are spelled on the lines of the control port and on the overlay (spec 11, section 11.1;
R146). -/

namespace Sys2Proof

namespace Machine

/-- The code of a decimal digit. -/
def digit (n : Nat) : Byte := BitVec.ofNat 8 (48 + n % 10)

/-- A number in decimal, with fuel for its digits. -/
def decimalFrom : Nat → Nat → Text
  | 0, _ => []
  | f + 1, n => if n < 10 then [digit n] else decimalFrom f (n / 10) ++ [digit n]

/-- A number in decimal. The show clock's greatest time has 15 digits; 40 are enough for every number here. -/
def decimal (n : Nat) : Text := decimalFrom 40 n

/-- A number in two decimal digits. -/
def twoDigits (n : Nat) : Text := [digit (n / 10), digit n]

/-- The code of a hex digit. -/
def hexDigit (n : Nat) : Byte := if n % 16 < 10 then BitVec.ofNat 8 (48 + n % 16) else BitVec.ofNat 8 (55 + n % 16)

/-- A cue number: a whole number when its tenths digit is 0, else with one decimal (R146). -/
def cueText (tenths : Nat) : Text :=
  if tenths % 10 = 0 then decimal (tenths / 10)
  else decimal (tenths / 10) ++ ascii "." ++ decimal (tenths % 10)

/-- A position `bar:beat`. -/
def posText (p : Pos) : Text := decimal p.bar ++ ascii ":" ++ decimal p.beat

/-- A position `bar:beat.tick`, the tick omitted when 0 (00_scope.md, "Positions"). -/
def tposText (p : TPos) : Text :=
  posText p.toPos ++ (if p.tick = 0 then [] else ascii "." ++ decimal p.tick)

/-- A station `STNnn`. -/
def stationText (n : Fin 16) : Text := ascii "STN" ++ twoDigits (n.val + 1)

/-- A slot: station number and letter. -/
def slotText (i : SlotId) : Text := decimal (i.station.val + 1) ++ [BitVec.ofNat 8 (65 + i.letter.val)]

/-- A part code or mask: three hex digits. -/
def hexText (c : BitVec 12) : Text := [hexDigit (c.toNat / 256), hexDigit (c.toNat / 16), hexDigit c.toNat]

/-- A holder, spelled in full. -/
def holderText : Holder → Text
  | .lineA => ascii "LINE_A"
  | .lineB => ascii "LINE_B"
  | .port => ascii "PORT"
  | .station n => stationText n

/-- A holder in the compact spelling of the stop record line (R184). -/
def holderShort : Holder → Text
  | .lineA => ascii "LA"
  | .lineB => ascii "LB"
  | .port => ascii "P"
  | .station n => ascii "S" ++ twoDigits (n.val + 1)

/-- A character of a sent text: escaped when it is `"`, `\` or outside 32..126 (R184). -/
def escape (b : Byte) : Text :=
  if b = 34#8 ∨ b = 92#8 ∨ b.toNat < 32 ∨ 126 < b.toNat then
    [92#8, hexDigit (b.toNat / 16), hexDigit b.toNat]
  else [b]

end Machine

/-! ## Words of the manual -/

/-- The spelling of a show state (R151). -/
def ShowState.word : ShowState → String
  | .dark => "DARK"
  | .arming => "ARMING"
  | .ready => "READY"
  | .countIn => "COUNT_IN"
  | .running => "RUNNING"
  | .stopped => "STOPPED"
  | .done => "DONE"

/-- The spelling of a beat source (R45). -/
def Src.word : Src → String
  | .tap1 => "TAP1"
  | .tap2 => "TAP2"
  | .tap3 => "TAP3"
  | .tap4 => "TAP4"
  | .port => "PORTTAP"

/-- The spelling of an edge select (R45). -/
def EdgeSel.word : EdgeSel → String
  | .rise => "RISE"
  | .fall => "FALL"
  | .both => "BOTH"
  | .off => "OFF"

/-- The spelling of a camera (R138). -/
def Cam.word : Cam → String
  | .cam1 => "CAM1"
  | .cam2 => "CAM2"

/-- The spelling of an output's source (R140). -/
def OutSource.word : OutSource → String
  | .cam1 => "CAM1"
  | .cam2 => "CAM2"
  | .focus => "FOCUS"

/-- The spelling of a video standard (R143, log 15). -/
def Standard.word : Standard → String
  | .hz50 => "50"
  | .hz5994 => "59.94"

/-- The spelling of a mute (R68). -/
def Mute.word : Mute → String
  | .muted => "MUTE"
  | .opened => "OPEN"

/-- The spelling of a policy (R1). -/
def Policy.word : Policy → String
  | .nominal => "NOMINAL"
  | .keep => "KEEP"

/-- The spelling of a mode (R1). -/
def BeatMode.word : BeatMode → String
  | .lead => "LEAD"
  | .follow => "FOLLOW"

/-- The spelling of a permission (R130). -/
def Permission.word : Permission → String
  | .allowed => "ALLOWED"
  | .denied => "DENIED"

/-- The spelling of a level (R151). -/
def Level.word : Level → String
  | .asserted => "ASSERTED"
  | .released => "RELEASED"

/-- The spelling of a stage (R94). -/
def Stage.word : Stage → String
  | .send => "SEND"
  | .atCue => "AT"

/-- The spelling of a beat kind (R19). -/
def BeatKind.word : BeatKind → String
  | .downbeat => "DOWNBEAT"
  | .beat => "BEAT"
  | .countDown => "COUNT_DOWN"
  | .count => "COUNT"

/-- The spelling of a notice class (R172). -/
def NoticeClass.word : NoticeClass → String
  | .showCtl => "SHOW"
  | .focus => "FOCUS"
  | .patch => "PATCH"
  | .station => "STATION"
  | .align => "ALIGN"
  | .video => "VIDEO"
  | .store => "STORE"
  | .cue => "CUE"
  | .beat => "BEAT"
  | .bar => "BAR"
  | .vamp => "VAMP"
  | .edit => "EDIT"
  | .tap => "TAP"

/-- ON or OFF. -/
def onOff (b : Bool) : String := if b then "ON" else "OFF"

/-- YES or NO. -/
def yesNo (b : Bool) : String := if b then "YES" else "NO"

namespace Machine

/-- The spelling of a holder status (R49). -/
def HolderStatus.word : HolderStatus → String
  | .active => "ACTIVE"
  | .lapsed => "LAPSED"

/-- The spelling of a vamp release state (R35). -/
def Release.word : Release → String
  | .none => "NONE"
  | .armed => "ARMED"
  | .deferred => "DEFERRED"

/-- The spelling of an engine state with its hold kind (R17, R44). -/
def EngState.word : EngState → String
  | .idle => "IDLE"
  | .count => "COUNT"
  | .run => "RUN"
  | .hold .point => "HOLD/POINT"
  | .hold .mark => "HOLD/MARK"

/-- The spelling of a request state (R98). -/
def Req.word : Req → String
  | .idle => "IDLE"
  | .queued => "QUEUED"
  | .sent => "SENT"
  | .withheld => "WITHHELD"
  | .fault => "FAULT"

/-- The spelling of a health state (R130). -/
def Health.word : Health → String
  | .absent => "ABSENT"
  | .active => "ACTIVE"
  | .warn => "WARN"
  | .off => "OFF"

/-- The spelling of a last error (R130). -/
def LinkError.word : LinkError → String
  | .check => "CHECK"
  | .silent => "SILENT"
  | .unknownReport => "UNKNOWN_REPORT"

/-- The spelling of a condition (R84). -/
def Cond.word : Cond → String
  | .unspent => "UNSPENT"
  | .pending _ => "PENDING"
  | .fired => "FIRED"
  | .passed => "PASSED"

/-- The spelling of a placement (R84). -/
def Placement.word : Placement → String
  | .placed => "PLACED"
  | .unplaced => "UNPLACED"

/-- The spelling of an image condition (R177). -/
def ImageCond.word : ImageCond → String
  | .valid => "VALID"
  | .invalid => "INVALID"

/-- The spelling of a refusal code (R169). -/
def Code.word : Code → String
  | .syntaxErr => "SYNTAX"
  | .unknown => "UNKNOWN"
  | .range => "RANGE"
  | .full => "FULL"
  | .notFound => "NOTFOUND"
  | .state => "STATE"
  | .held => "HELD"
  | .notReady => "NOTREADY"
  | .notHeld => "NOTHELD"
  | .notVamp => "NOTVAMP"
  | .busy => "BUSY"
  | .overlap => "OVERLAP"
  | .gap => "GAP"

/-- The spelling of a SHOW notice's cause (R152). -/
def ShowCause.word : ShowCause → String
  | .arm => "ARM"
  | .loaded => "LOADED"
  | .go => "GO"
  | .markBeat => "MARKBEAT"
  | .actEnd => "ACTEND"
  | .stop => "STOP"
  | .release => "RELEASE"
  | .load => "LOAD"
  | .erase => "ERASE"
  | .start => "START"

/-- The spelling of a FOCUS notice's cause (R61). -/
def FocusCause.word : FocusCause → String
  | .race => "RACE"
  | .claim => "CLAIM"
  | .release => "RELEASE"
  | .pin => "PIN"
  | .free => "FREE"
  | .clear => "CLEAR"
  | .lapse => "LAPSE"
  | .recover => "RECOVER"

/-- The spelling of a VIDEO notice's cause (R139). -/
def VideoCause.word : VideoCause → String
  | .lost => "LOST"
  | .black => "BLACK"
  | .locked => "LOCKED"

/-- The spelling of a STORE notice's cause (R178, R181). -/
def StoreCause.word : StoreCause → String
  | .saved => "SAVED"
  | .failed => "FAILED"
  | .invalid => "INVALID"

/-- The spelling of a STATION notice's cause (R136). -/
def StationCause.word : StationCause → String
  | .join => "JOIN"
  | .warn => "WARN"
  | .active => "ACTIVE"
  | .off => "OFF"

/-- The spelling of how a stage fired (R96). -/
def FireHow.word : FireHow → String
  | .beat => "BEAT"
  | .tick => "TICK"
  | .overtaken => "OVERTAKEN"
  | .fire => "FIRE"

/-- The spelling of an edit outcome (R94). -/
def EditOutcome.word : EditOutcome → String
  | .passed => "PASSED"
  | .unplaced => "UNPLACED"
  | .kept => "KEPT"
  | .dropped => "DROPPED"

end Machine

end Sys2Proof
end

