-- ==== Sys2Proof/Machine/Ranges.lean ====
section
/-! DEFINITION. The ranges of every field a request carries, and of what an event hands over. A request that fails its
field ranges is refused RANGE before its owner sees it (R169). -/

namespace Sys2Proof

/-! ## Single fields -/

/-- Whether a number lies in a range. -/
def within (lo hi n : Nat) : Bool := lo ≤ n && n ≤ hi

/-- Whether a field left out, or given, lies in a range. -/
def withinOpt (lo hi : Nat) : Option Nat → Bool
  | none => true
  | some n => within lo hi n

/-- A name character: A to Z, 0 to 9, `-` or `.` (R11, R45, R62). -/
def nameChar (b : Byte) : Bool :=
  within 65 90 b.toNat || within 48 57 b.toNat || b == 45#8 || b == 46#8

/-- A name of 1 to `w` characters (R11, R45, R62). -/
def nameOk (w : Nat) (t : Text) : Bool := within 1 w t.length && t.all nameChar

/-- A name that may be left out. -/
def nameOpt (w : Nat) : Option Text → Bool
  | none => true
  | some t => nameOk w t

/-- A position's ranges (00_scope.md, "Positions"). -/
def Pos.ok (p : Pos) : Bool := within 1 9999 p.bar && within 1 15 p.beat

/-- A position with its tick (00_scope.md, "Positions"). -/
def TPos.ok (p : TPos) : Bool := p.toPos.ok && p.tick ≤ 479

/-- A beat period (00_scope.md, "Beat period and fractions"). -/
def periodOk (p : Option Nat) : Bool := withinOpt Config.periodLow Config.periodHigh p

/-- A cue number in tenths (R79). -/
def cueNumOk (n : Nat) : Bool := within 1 9999 n

/-- A place on an overlay page (R144). -/
def placeOk (row col : Nat) : Bool := within 1 2 row && within 1 32 col

/-! ## The fields of requests -/

/-- The single-field ranges of FORM.PUT (R1). -/
def FormFields.ok (f : FormFields) : Bool :=
  within 1 9999 f.first && within 1 999 f.count && within 1 15 f.meter && periodOk f.nominal &&
    withinOpt 0 32 f.band && withinOpt 0 2 f.vamp && f.holds.length ≤ 4 && f.holds.all Pos.ok

/-- The ranges of FORM.GET (R8). -/
def FormQuery.ok : FormQuery → Bool
  | .summary => true
  | .bar b => within 1 9999 b
  | .after b => b ≤ 9999

/-- The ranges of MARK.PUT (R11). -/
def MarkFields.ok (f : MarkFields) : Bool :=
  nameOk 8 f.name && f.pos.ok && withinOpt 0 2 f.countIn && periodOk f.tempo

/-- The ranges of MARK.GET (R13). -/
def MarkQuery.ok : MarkQuery → Bool
  | .first => true
  | .named n | .after n => nameOk 8 n

/-- The ranges of a PATCH action (R80). -/
def PatchAction.ok (a : PatchAction) : Bool := a.patch ≤ Config.patchTop

/-- The ranges of an action (R80). -/
def Action.ok : Action → Bool
  | .patch a => a.ok
  | .note _ => true
  | .lane _ _ s => withinOpt 1 4 s

/-- The ranges of CUE.PUT (R79, R80, R82). -/
def CueFields.ok (f : CueFields) : Bool :=
  cueNumOk f.num && f.pos.ok && withinOpt 0 16 f.lead && within 1 8 f.actions.length && f.actions.all Action.ok

/-- The ranges of CUE.GET (R83). -/
def CueQuery.ok : CueQuery → Bool
  | .summary | .first => true
  | .num n | .after n => cueNumOk n

/-- The ranges of NOTE.PUT (R81). -/
def noteOk (t : Text) : Bool := t.length ≤ 32 && t.all fun b => within 32 126 b.toNat

/-- The ranges of SLOT.FILTER: a mask needs a code (R100). -/
def FilterFields.ok : FilterFields → Bool
  | .slot _ (.maskAlone _) _ => false
  | .slot _ _ (.patch p) => p ≤ Config.patchTop
  | .slot _ _ _ => true
  | .timeout ms => within 100 10000 ms

/-- The ranges of SRC.SET: PORTTAP has no edge select and no debounce to set (R45, R46). -/
def SrcFields.ok (x : Src) (f : SrcFields) : Bool :=
  withinOpt 1 5 f.rank && withinOpt 20 250 f.debounce && nameOpt 6 f.name &&
    (x != .port || (f.edge.isNone && f.debounce.isNone))

/-- The ranges of ENGINE.SET (R18). -/
def EngineFields.ok (f : EngineFields) : Bool :=
  withinOpt 4 32 f.w && withinOpt 0 16 f.kt && withinOpt 0 16 f.kp && withinOpt 1 16 f.s && withinOpt 1 4 f.c

/-- The ranges of ROOM.SET (R62). -/
def RoomFields.ok (f : RoomFields) : Bool :=
  withinOpt 0 200000 f.cr && withinOpt 0 250000 f.vr && nameOpt 8 f.name

/-- The ranges of LANE.SET (R68). -/
def LaneFields.ok (f : LaneFields) : Bool := withinOpt 1 4 f.sub && withinOpt 0 15 f.level

/-- The ranges of VIDEO.SET (R143). -/
def VideoFields.ok (f : VideoFields) : Bool := withinOpt 1 6 f.flash

/-- The ranges of OUT.SET (R140). -/
def OutFields.ok (f : OutFields) : Bool := withinOpt 0 8 f.delay

/-- The width of an auto-field (R145). -/
def fieldWidth : Field → Nat
  | .bar => 4
  | .beat => 2
  | .tempo => 3
  | .vamp => 6
  | .nextCue => 6
  | .focus => 6
  | .note => 32
  | .holder => 6
  | .mark => 8

/-- A field's place: its cells lie on the row (R145). -/
def fieldPlaceOk (f : Field) : Option Place → Bool
  | none => true
  | some p => placeOk p.row p.col && p.col + fieldWidth f ≤ 33

/-! ## What events hand over -/

/-- A beat mark's ranges (R19). -/
def BeatMark.ok (m : BeatMark) : Bool :=
  m.pos.ok && within Config.periodLow Config.periodHigh m.period && within 1 Config.formCapacity m.entry &&
    m.pass ≤ 65535 && withinOpt 1 30 m.count && m.time < Config.clockSpan

/-! ## Commands -/

/-- The tag of a request, none for an event (R168). -/
def Instr.tag? : Instr → Option Nat
  | .reset t | .status t _ | .formPut t _ | .formDel t _ | .formGet t _ | .markPut t _ | .markDel t _ | .markGet t _
  | .cuePut t _ | .cueDel t _ | .cueGet t _ | .cueFire t _ | .notePut t _ _ | .slotFilter t _ | .slotGet t _
  | .slotRetry t _ | .stationSet t _ _ | .stationGet t _ | .srcSet t _ _ | .srcGet t _ | .engineSet t _
  | .focusPin t _ | .focusFree t _ | .tap t _ | .roomSet t _ _ | .laneSet t _ _ | .videoSet t _ | .outSet t _ _
  | .ovlText t _ _ _ _ | .ovlFlash t _ _ _ _ _ | .ovlField t _ _ | .arm t _ | .go t _ | .stop t _
  | .stopClear t _ | .vampOut t | .noticeMask t _ | .showSave t | .showLoad t | .showErase t => some t
  | .powerOn | .lineByteReceived _ | .requestLineTaken | .outputLineEnd | .saveComplete _ | .tapLineEdge _ _
  | .stopLineLevelChange _ _ | .stopLineTaken _ | .beatDue | .windowClose | .beatMarkClick _ | .clickDue _
  | .beatMarkCue _ | .stagePendingTime | .beatMarkVideo _ | .beatMarkPort _ | .patchAction _ _ | .laneAction _ _ _
  | .noteAction _ | .lateCheck _ _ _ | .appliedDeadline _ | .pollDue | .beaconDue | .beaconFrameComplete _
  | .patchFrameComplete _ | .stopFrameComplete _ | .clearFrameComplete _ | .pollFrameComplete _ _
  | .patchOutcome _ _ _ | .appliedReport _ _ _ | .helloResync _ _ | .stationOffSlots _ | .panic _ | .vampoutReport _
  | .chasePendingCount _ | .actEnd | .markBeat | .lanesStateChange _ | .cueStop | .slotStop | .videoStopPage
  | .focusHandoverVideo _ | .referenceFrameStart _ _ => none

/-- Whether every operand of a command lies in its own range (R169, step 3). -/
def Instr.rangeOk : Instr → Bool
  | .formPut _ f => f.ok
  | .formDel _ b => within 1 9999 b
  | .formGet _ q => q.ok
  | .markPut _ f => f.ok
  | .markDel _ n => nameOk 8 n
  | .markGet _ q => q.ok
  | .cuePut _ f => f.ok
  | .cueDel _ n => cueNumOk n
  | .cueGet _ q => q.ok
  | .cueFire _ n => cueNumOk n
  | .notePut _ _ t => noteOk t
  | .slotFilter _ f => f.ok
  | .srcSet _ x f => f.ok x
  | .engineSet _ f => f.ok
  | .tap _ t => t < Config.clockSpan
  | .roomSet _ _ f => f.ok
  | .laneSet _ _ f => f.ok
  | .videoSet _ f => f.ok
  | .outSet _ _ f => f.ok
  | .ovlText _ _ r c _ => placeOk r c
  | .ovlFlash _ _ r c _ _ => placeOk r c
  | .ovlField _ f p => fieldPlaceOk f p
  | .arm _ n => nameOk 8 n
  | .stop _ r => withinOpt 0 255 r
  | .beatMarkClick m | .beatMarkCue m | .beatMarkVideo m | .beatMarkPort m => m.ok
  | .patchAction c a => cueNumOk c && a.ok
  | .laneAction _ _ s => withinOpt 1 4 s
  | .lateCheck c l _ => cueNumOk c && l.length ≤ 8 && l.all PatchAction.ok
  | .pollFrameComplete _ b => b.length = 8 || b.isEmpty
  | .patchOutcome _ p _ => p ≤ Config.patchTop
  | .appliedReport _ p _ => p ≤ Config.patchTop
  | .helloResync _ k => within 1 4 k
  | .chasePendingCount n => n ≤ 64
  | .focusHandoverVideo (some h) => nameOk 6 h.name
  | _ => true

end Sys2Proof
end

