-- ==== Sys2Proof/WellFormed.lean ====
section
/-! DEFINITION. Which commands are well formed: every operand in its range, and a request's tag a request tag. -/

namespace Sys2Proof

/-- A well-formed command: its operands in range, and a request's tag a request tag (R168, R169). -/
def Instr.wf (i : Instr) : Bool := i.rangeOk && withinOpt 1 255 i.tag?

end Sys2Proof
end

