-- ==== Sys2Proof/Machine/VideoOps.lean ====
section
/-! DEFINITION. The Video Unit's shared operations: cameras and the slot store, the outputs, the overlay pages and
their fields, the beat flash and the stop page (spec 08). -/

namespace Sys2Proof.Machine

/-! ## Cameras and slots (R138, R139) -/

/-- The six outputs. -/
def allOuts : List (Fin 6) := [0, 1, 2, 3, 4, 5]

/-- The start of a reference frame on the show clock (R138). -/
def Dev.frameStart (d : Dev) (k : Nat) : Time := d.video.origin + k * d.data.std.frame

/-- A camera's record after a capture slot (R138, R139). -/
def CamRun.capture (c : CamRun) : Option Nat → CamRun
  | some id => ⟨true, 0, some id⟩
  | none =>
    let m := satSucc 51 c.missing
    ⟨c.locked && m < 2, m, c.lastGood⟩

/-- What a capture slot stores of a camera: the frame, the last good frame, or black (R138, R139). -/
def CamRun.stored (c : CamRun) : Option Nat → Picture
  | some id => .live id
  | none =>
    if c.missing + 1 ≤ 50 then
      match c.lastGood with
      | some id => .held id
      | none => .black
    else .black

/-- The notices a capture slot raises for a camera: LOCKED, LOST at the second missing slot, BLACK at the 51st
(R138, R139). -/
def CamRun.causes (c : CamRun) (f : Option Nat) : List VideoCause :=
  match f with
  | some _ => if c.locked then [] else [.locked]
  | none =>
    (if c.locked && c.missing + 1 == 2 then [.lost] else []) ++ (if c.missing + 1 == 51 then [.black] else [])

/-- The outputs whose current camera is a camera, by number (R139). -/
def Video.outsOn (v : Video) (c : Cam) : List Nat :=
  (allOuts.filter fun o => v.outs[o].cam == c).map fun o => o.val + 1

/-- A camera's record in the unit. -/
def Video.cam (v : Video) : Cam → CamRun
  | .cam1 => v.cam1
  | .cam2 => v.cam2

/-- The capture notices of a camera at a slot start (R139). -/
def Dev.raiseCapture (d : Dev) (c : Cam) (f : Option Nat) (t : Time) : Dev :=
  d.raiseAll (((d.video.cam c).causes f).map fun x => .video x c (d.video.outsOn c) t)

/-- Both cameras' capture of the next slot: the newest slot joins the store with its tag and its recorded position,
and the tenth leaves (R138, R146, R148). CAM1's notices are raised before CAM2's (the model's choice, log 26). -/
def Dev.capture (d : Dev) (f1 f2 : Option Nat) : Dev :=
  let v := d.video
  let k := v.nextFrame
  let t := d.frameStart k
  let tag := (v.tags.find? fun x => x.no == k).map fun x => x.kind
  let slot : VSlot := ⟨k, v.cam1.stored f1, v.cam2.stored f2, tag, v.lastPos⟩
  let d := (d.raiseCapture .cam1 f1 t).raiseCapture .cam2 f2 t
  d.setVideo
    { v with
      nextFrame := k + 1
      cam1 := v.cam1.capture f1
      cam2 := v.cam2.capture f2
      store := (slot :: v.store).take 9
      tags := v.tags.filter fun x => k < x.no }

/-! ## Beat tags (R148) -/

/-- The first capture slot whose start is at or after a time (R148). -/
def Dev.slotAfter (d : Dev) (b : Time) : Nat := ceilDiv (b - d.video.origin) d.data.std.frame

/-- A beat mark reaches the Video Unit: it tags its slot, and its position is recorded with the slots that begin
after it is taken (R146, R148). -/
def Dev.tagBeat (d : Dev) (m : BeatMark) : Dev :=
  let v := d.video
  let n := d.slotAfter m.time
  d.setVideo
    { v with
      store := v.store.map fun x => if x.no = n then { x with tag := some m.kind } else x
      tags := if v.nextFrame ≤ n then ⟨n, m.kind⟩ :: v.tags.filter fun x => x.no != n else v.tags
      lastPos := some m.pos }

/-! ## Overlay pages (R144 to R146) -/

/-- The cell of a row 1..2 and column 1..32. -/
def cellIndex (row col : Nat) : Nat := 32 * (row - 1) + (col - 1)

/-- The page of an auto-field (R145). -/
def fieldPage : Field → PageSel
  | .bar | .beat | .tempo | .vamp | .nextCue | .focus | .note => .run
  | .holder | .mark => .stop

/-- The nine auto-fields. -/
def allFields : List Field := [.bar, .beat, .tempo, .vamp, .nextCue, .focus, .note, .holder, .mark]

/-- Whether a field at a place covers a cell (R145). -/
def coversCell (f : Field) (p : Place) (i : Nat) : Bool :=
  cellIndex p.row p.col ≤ i && i < cellIndex p.row p.col + fieldWidth f

/-- A number right-aligned in a width (R146). -/
def padLeft (w : Nat) (t : Text) : Text := List.replicate (w - t.length) 32#8 ++ t

/-- A text left-aligned in a width (R146). -/
def padRight (w : Nat) (t : Text) : Text := (t ++ List.replicate (w - t.length) 32#8).take w

/-- The contents of the VAMP field (R146). -/
def vampText (g : Engine) : Text :=
  if g.pass = 0 then []
  else
    match g.rel with
    | .armed => ascii "LAST"
    | .deferred => ascii "LAST+1"
    | .none =>
      if g.pass ≤ 9 then ascii "VAMP " ++ decimal g.pass
      else if g.pass ≤ 99 then ascii "VAMP" ++ decimal g.pass
      else ascii "VAMP99"

/-- The contents of a field, from the state as it stands and the position recorded with the slot shown (R146). -/
def Dev.fieldText (d : Dev) (rec : Option Pos) (f : Field) : Text :=
  match f with
  | .bar => padLeft 4 ((rec.map fun p => decimal p.bar).getD [])
  | .beat => padLeft 2 ((rec.map fun p => decimal p.beat).getD [])
  | .tempo => padLeft 3 (decimal (tempoShown d.eng.period))
  | .vamp => padRight 6 (vampText d.eng)
  | .nextCue => padLeft 6 ((d.nextCue.map fun c => cueText c.num).getD [])
  | .focus => padRight 6 ((d.arb.holder.map fun x => (d.data.srcs.get x).name).getD [])
  | .note => padRight 32 ((d.video.note.map fun n => d.data.notes[n]).getD [])
  | .holder => padRight 6 ((d.ctl.first.map holderText).getD [])
  | .mark => padRight 8 ((d.ctl.armed.map fun a => a.mark.name).getD [])

/-- A code as drawn: 32..126 as its character, any other as blank (R144). -/
def drawnCode (c : Byte) : Byte := if 32 ≤ c.toNat ∧ c.toNat ≤ 126 then c else 32#8

/-- The placed field of a page that covers a cell, with its place (R145). -/
def Dev.fieldOver (d : Dev) (pg : PageSel) (i : Nat) : Option (Field × Place) :=
  allFields.findSome? fun f =>
    match d.data.fields[f.index] with
    | some p => if fieldPage f = pg ∧ coversCell f p i = true then some (f, p) else none
    | none => none

/-- The static cells of a page (R144). -/
def ShowData.page (s : ShowData) : PageSel → Page
  | .run => s.runPage
  | .stop => s.stopPage

/-- Whether the stop page's flash cells are blank: an even half-period of the blink (R149). -/
def Dev.blinkBlank (d : Dev) : Bool :=
  match d.video.blink with
  | none => false
  | some n => n / (match d.data.std with | .hz50 => 25 | .hz5994 => 30) % 2 == 1

/-- A page's cells as drawn: the fields over the static codes, flash cells inverted by a running flash or blanked by
the blink, the FOCUS field inverted while the holder is LAPSED (R144 to R149). -/
def Dev.drawPage (d : Dev) (pg : PageSel) (rec : Option Pos) (flash : Nat) : List Drawn :=
  let texts := allFields.map fun f => (f, d.fieldText rec f)
  let lapsed : Bool := d.arb.status == some .lapsed
  (List.range 64).map fun i =>
    let cell := ((d.data.page pg).toList[i]?).getD ⟨32#8, false⟩
    let onTop := d.fieldOver pg i
    let code :=
      match onTop with
      | some (f, p) =>
        ((texts.find? fun x => x.1 == f).bind fun x => x.2[i - cellIndex p.row p.col]?).getD 32#8
      | none => cell.code
    match pg with
    | .stop => ⟨if cell.flash && d.blinkBlank then 32#8 else drawnCode code, false⟩
    | .run =>
      let inFocus : Bool := match onTop with | some (.focus, _) => true | _ => false
      ⟨drawnCode code, xor (cell.flash && 0 < flash) (inFocus && lapsed)⟩

/-! ## The outputs (R140 to R142, R148, R149) -/

/-- The page an output draws: STOP while the show is STOPPED, else RUN or none by its overlay setting (R149). -/
def Dev.pageFor (d : Dev) (o : Fin 6) : Option PageSel :=
  if d.ctl.state = .stopped then some .stop
  else if d.data.outs[o].overlay then some .run
  else none

/-- The picture of a slot for a camera (R138). -/
def VSlot.pic (s : VSlot) : Cam → Picture
  | .cam1 => s.pic1
  | .cam2 => s.pic2

/-- The slot an output shows at the start of reference frame `k`, if it is in the store (R141). -/
def Dev.slotShown (d : Dev) (k : Nat) (o : Fin 6) : Option VSlot :=
  if d.delay o ≤ k then d.video.store.find? fun s => s.no == k - d.delay o else none

/-- The flash length a tag starts: doubled for DOWNBEAT and COUNT_DOWN (R148). -/
def flashOf (len : Nat) : BeatKind → Nat
  | .downbeat | .countDown => 2 * len
  | .beat | .count => len

/-- The flash counter of an output at a frame start: one less, or started by the tag of the slot shown; 0 when the
output does not draw the RUN page (R148). -/
def Dev.flashNext (d : Dev) (o : Fin 6) (s : Option VSlot) : Nat :=
  if d.pageFor o = some .run then
    match s.bind fun x => x.tag with
    | some k => flashOf d.data.flashLen k
    | none => d.video.outs[o].flash - 1
  else 0

/-- What an output shows with a slot and a flash counter (R141, R146, R149). -/
def Dev.show_ (d : Dev) (o : Fin 6) (s : Option VSlot) (flash : Nat) : Shown :=
  let page := d.pageFor o
  ⟨(s.map fun x => x.pic d.video.outs[o].cam).getD .black, page,
    match page with
    | some pg => d.drawPage pg (s.bind fun x => x.pos) flash
    | none => []⟩

/-- An output at the start of reference frame `k` (R141, R148). -/
def Dev.outFrame (d : Dev) (k : Nat) (o : Fin 6) : OutRun :=
  let s := d.slotShown k o
  let f := d.flashNext o s
  { d.video.outs[o] with flash := f, shown := d.show_ o s f }

/-- The blink counter at a frame start (R149). -/
def Dev.stepBlink (d : Dev) : Dev :=
  d.setVideo
    { d.video with
      blink := if d.ctl.state = .stopped then some (match d.video.blink with | none => 0 | some n => n + 1) else none }

/-- An output's current camera at a frame start: its source, or for FOCUS what was handed over since the last frame
start, if anything was (R140, R142). -/
def OutRun.takeCam (r : OutRun) (source : OutSource) : OutRun :=
  { r with
    cam := match source with | .cam1 => .cam1 | .cam2 => .cam2 | .focus => r.next.getD r.cam
    next := none }

/-- Every output takes its camera (R140, R142). -/
def Dev.takeCams (d : Dev) : Dev :=
  d.setVideo { d.video with outs := Vector.ofFn fun o : Fin 6 => d.video.outs[o].takeCam d.data.outs[o].source }

/-- The next reference frame starts: the outputs' cameras, capture, blink, and every output shows its slot (R138, R141,
R142, log 26). -/
def Dev.startReference (d : Dev) (f1 f2 : Option Nat) : Dev :=
  let k := d.video.nextFrame
  let d := (d.takeCams.capture f1 f2).stepBlink
  d.setVideo { d.video with outs := Vector.ofFn fun o : Fin 6 => d.outFrame k o }

/-- The camera an output takes at the next frame start after a hand-over of the holder: only a FOCUS output, and only
a named camera (R142, log 31). -/
def handCam (source : OutSource) (h : Option FocusHand) (next : Option Cam) : Option Cam :=
  match source, h with
  | .focus, some ⟨_, some c, _⟩ => some c
  | _, _ => next

/-- A hand-over of the focus holder reaches the Video Unit (R142). -/
def Dev.handCams (d : Dev) (h : Option FocusHand) : Dev :=
  d.setVideo
    { d.video with
      outs := Vector.ofFn fun o : Fin 6 =>
        { d.video.outs[o] with next := handCam d.data.outs[o].source h d.video.outs[o].next } }

/-- Every output draws the STOP page at once, with the picture it shows, and no flash, and the blink starts afresh
(R149). A frame start between the entry into STOPPED and this event has started the blink already; it then starts at 0
again at the next frame start (the model's choice, log 35). -/
def Dev.stopPages (d : Dev) : Dev :=
  let d := d.setVideo { d.video with blink := none }
  let cells := d.drawPage .stop none 0
  d.setVideo
    { d.video with
      outs := mapAll (fun r => { r with flash := 0, shown := { r.shown with page := some .stop, cells := cells } })
        d.video.outs }

/-- What a change of standard does to the frames, stores, tags, flashes and cameras (R143). -/
def Video.restart (v : Video) (t : Time) : Video :=
  { v with
    origin := t
    nextFrame := 0
    cam1 := .start
    cam2 := .start
    store := []
    tags := []
    lastPos := none
    outs := mapAll (fun r => { r with flash := 0 }) v.outs
    blink := none }

/-- An output whose source is written: a camera handed over and not yet taken is dropped when the source changes, so
that an output changed to FOCUS keeps its current camera (R142). -/
def OutRun.resource (r : OutRun) (old new : OutSource) : OutRun := if new = old then r else { r with next := none }

/-- Every output's source written by a load or an erase; `old` is the data before it (R142, R150). -/
def Dev.resourceOuts (d : Dev) (old : ShowData) : Dev :=
  d.setVideo
    { d.video with
      outs := Vector.ofFn fun o : Fin 6 => d.video.outs[o].resource old.outs[o].source d.data.outs[o].source }

end Sys2Proof.Machine
end

