-- ==== Sys2Proof/Machine/Ops.lean ====
section
/-! DEFINITION. What every command shares: the owner's answer, the end of a command with both arbiters, and the Show
Controller's operations (spec 09, spec 10 sections 10.1 and 10.2). -/

namespace Sys2Proof.Machine

/-! ## Requests and their replies (R169, R170) -/

/-- The owner's answer is written to the reply slot with the request's tag (R170, log 5). -/
def Dev.answer (d : Dev) (tag : Nat) (a : Answer) : Dev := d.setPort { d.port with reply := some ⟨tag, a⟩ }

/-- The request in hand is taken by its owner (R169). -/
def Dev.takeRequest (d : Dev) (c : Instr) : Dev :=
  if d.port.inHand = some c then d.setPort { d.port with inHand := none } else d

/-- A request reaches its owner, which acts and answers; a field out of its range is refused RANGE before that, and
nothing changes (R169, R170). -/
def Dev.request (d : Dev) (c : Instr) (tag : Nat) (owner : Dev → Dev × Answer) : Dev :=
  let d := d.takeRequest c
  if c.rangeOk then (owner d).1.answer tag (owner d).2 else d.answer tag (.no .range)

/-- A reply field with one value. -/
def fld (key : String) (v : Val) : Fld := ⟨key, [v]⟩

/-- A reply field whose value may be absent (R184). -/
def fldOpt (key : String) (v : Option Val) : Fld := ⟨key, v.toList⟩

/-- A bare value of a reply. -/
def bare (v : Val) : Fld := ⟨"", [v]⟩

/-! ## The end of a command -/

/-- The Show Controller hands the stop record over when it has changed (R166, R175, log 22). -/
def Dev.syncRecord (d : Dev) : Dev :=
  if d.ctl.record = d.port.record then d
  else d.setPort { d.port with record := d.ctl.record, recordChanged := true }

/-- The stop record handed over whatever it holds (R167, R175). -/
def Dev.handRecord (d : Dev) : Dev := d.setPort { d.port with record := d.ctl.record, recordChanged := true }

/-- The output arbiter: with the line free, the first of reply, changed stop record, oldest high notice and oldest low
notice starts (R171, R172, R175). Things that become ready together on a free line are ranked in that order too, where
R171 lets either go first: the model's choice (log 39). -/
def Port.sendNext (p : Port) : Port :=
  match p.sending with
  | some _ => p
  | none =>
    match p.reply with
    | some r => { p with sending := some (.reply r) }
    | none =>
      if p.recordChanged then { p with sending := some (.record p.record), recordChanged := false }
      else
        match p.high with
        | n :: rest => { p with high := rest, sending := some (.notice n) }
        | [] =>
          match p.low with
          | n :: rest => { p with low := rest, sending := some (.notice n) }
          | [] => p

/-- The output arbiter at work (R171, log 39). -/
def Dev.sendNext (d : Dev) : Dev := d.setPort d.port.sendNext

/-- The end of every command: the record is handed over, and both arbiters choose (R121, R171, R175, log 6). -/
def Dev.settle (d : Dev) : Dev := d.syncRecord.startFrame.sendNext

/-! ## Show state (R151, R152) -/

/-- The armed mark's name, if a mark is armed. -/
def Control.markName (c : Control) : Option Text := c.armed.map fun a => a.mark.name

/-- A SHOW notice of the Show Controller as it stands (R152). -/
def Dev.raiseShow (d : Dev) (cause : ShowCause) (before : Option ShowState) : Dev :=
  d.raise (.showCtl cause before d.ctl.state d.ctl.episode d.ctl.markName d.clock)

/-- A change of show state, with its notice; the lanes are told of a state that empties them (R75, R152). -/
def Dev.setShowState (d : Dev) (st : ShowState) (cause : ShowCause) : Dev :=
  let before := d.ctl.state
  let d := (d.setCtl { d.ctl with state := st }).raiseShow cause (some before)
  if ShowState.silent st then d.hand [.lanesStateChange st] else d

/-- The armed mark cleared, with the prepared count-in, the chase flags and the count, and counts not yet taken withdrawn
(R5, R39, R115, R158, log 9). -/
def Dev.clearArmed (d : Dev) : Dev :=
  ((d.setCtl { d.ctl with armed := none }).setEng { d.eng with prepared := none }).clearChase

/-- The run context absent (R91). -/
def Dev.clearRun (d : Dev) : Dev := d.setSched { d.sched with ctx := none }

/-! ## Entering and leaving STOPPED (R159, R163, R165) -/

/-- The next episode (R151). -/
def nextEpisode (e : Nat) : Nat := if e = 65535 then 1 else e + 1

/-- What an entry into STOPPED hands to the other blocks (R163). -/
def stopHands : List Instr := [.cueStop, .slotStop, .lanesStateChange .stopped, .videoStopPage]

/-- The Show Controller's part of an entry into STOPPED, before its notice (R163). -/
def Dev.beginStop (d : Dev) (h : Holder) (reason : Nat) : Dev :=
  let ep := nextEpisode d.ctl.episode
  let d := d.clearArmed
  let d := d.setCtl
    { d.ctl with
      state := .stopped
      holders := [h]
      episode := ep
      first := some h
      reason := reason
      stopPos := d.eng.pos
      stopTime := some d.clock }
  let d := d.setEng d.eng.stopped
  let d := d.setLink { d.link with stopPending := some ⟨ep, 0⟩ }
  (d.withdraw voidAtStop).hand stopHands

/-- The show enters STOPPED (R163). -/
def Dev.enterStopped (d : Dev) (h : Holder) (reason : Nat) : Dev :=
  (d.beginStop h reason).raiseShow .stop (some d.ctl.state)

/-- A stop request adds its holder (R159). -/
def Dev.addHolder (d : Dev) (h : Holder) (reason : Nat) : Dev :=
  if d.ctl.holders.contains h then d
  else if d.ctl.holders.isEmpty then d.enterStopped h reason
  else d.setCtl { d.ctl with holders := d.ctl.holders ++ [h] }

/-- The state a show leaves STOPPED for (R165). -/
def Control.afterStop (c : Control) : ShowState :=
  match c.armed with
  | none => .dark
  | some _ => if c.count = 0 then .ready else .arming

/-- A holder leaves the set; when it was the last, the show leaves STOPPED (R159, R165). -/
def Dev.removeHolder (d : Dev) (h : Holder) : Dev :=
  if d.ctl.holders.contains h then
    let d := d.setCtl { d.ctl with holders := d.ctl.holders.erase h }
    if d.ctl.holders.isEmpty then d.setShowState d.ctl.afterStop .release else d
  else d

/-! ## The stop lines (R160) -/

/-- One of the stop lines. -/
def Control.line (c : Control) : StopLine → LineRun
  | .a => c.lineA
  | .b => c.lineB

/-- One stop line's record changed. -/
def Control.setLine (c : Control) (l : StopLine) (r : LineRun) : Control :=
  match l with
  | .a => { c with lineA := r }
  | .b => { c with lineB := r }

/-- The holder of a stop line. -/
def lineHolder : StopLine → Holder
  | .a => .lineA
  | .b => .lineB

/-- Whether a line's level has held long enough to be taken, and is not the level taken (R160). -/
def LineRun.due (r : LineRun) (now : Time) : Bool := r.level != r.taken && r.changed + Config.settleTime ≤ now

/-- The holders of the lines asserted at this moment, A before B (R167). -/
def Control.assertedLines (c : Control) : List Holder :=
  (if c.lineA.level = .asserted then [.lineA] else []) ++ (if c.lineB.level = .asserted then [.lineB] else [])

/-- A line's level is taken at once, as at power-on and RESET (R160, R167). -/
def LineRun.takenNow (r : LineRun) : LineRun := { r with taken := r.level }

/-! ## What the other blocks do at a change of show state -/

/-- The Cue Scheduler at the entry into STOPPED (R91). -/
def Dev.cueStopped (d : Dev) : Dev := d.setSched d.sched.stopped

/-- The Slot Manager at the entry into STOPPED (R108). -/
def Dev.slotStopped (d : Dev) : Dev := d.slotEvent fun d => allSlots.foldl Dev.withholdSlot d

/-- The Click Generator at a change of show state (R75). -/
def Dev.lanesChanged (d : Dev) (st : ShowState) : Dev := if ShowState.silent st then d.emptyLanes else d

/-- One hand-over of a change of show state is taken, any other waits (log 9). -/
def Dev.takeShowChange (d : Dev) (c : Instr) : Dev :=
  match c with
  | .cueStop => (d.take c).cueStopped
  | .slotStop => (d.take c).slotStopped
  | .lanesStateChange st => (d.take c).lanesChanged st
  | .videoStopPage => (d.take c).stopPages
  | _ => d

/-- Every hand-over of a change of show state that waits is taken, in order (log 9). -/
def Dev.takeShowChanges (d : Dev) : Dev := d.handovers.foldl Dev.takeShowChange d

/-! ## Running a command -/

/-- A command whose effect on the part is `f`; every command ends by `Dev.settle`. -/
def State.run (s : State) (f : Dev → Dev) : Host.Outcome State Fault Refusal := .next (s.after fun d => (f d).settle)

/-- A request whose owner is `owner`. -/
def State.request (s : State) (c : Instr) (tag : Nat) (owner : Dev → Dev × Answer) :
    Host.Outcome State Fault Refusal := s.run fun d => d.request c tag owner

end Sys2Proof.Machine
end

