-- ==== Sys2Proof/Machine/Render.lean ====
section
/-! DEFINITION. The lines the part sends, spelled out: replies, the stop record and the notices (spec 11, section
11.1; R184). -/

namespace Sys2Proof.Machine

/-! ## Values and fields -/

/-- A notice class in two letters, for a reply that would pass 200 characters (log 15). -/
def classShort : NoticeClass → String
  | .showCtl => "SH"
  | .focus => "FO"
  | .patch => "PA"
  | .station => "SN"
  | .align => "AL"
  | .video => "VI"
  | .store => "SR"
  | .cue => "CU"
  | .beat => "BE"
  | .bar => "BA"
  | .vamp => "VA"
  | .edit => "ED"
  | .tap => "TA"

/-- A value spelled (spec 11, section 11.1). -/
def Val.spell : Val → Text
  | .num n => decimal n
  | .word w => ascii w
  | .name t => t
  | .text t => [34#8] ++ t.flatMap escape ++ [34#8]
  | .pos p => posText p
  | .tpos p => tposText p
  | .cue n => cueText n
  | .hex c => hexText c
  | .slot i => slotText i
  | .station n => stationText n
  | .holder h => holderText h
  | .cls c => ascii c.word

/-- A value in its compact spelling (R184, log 15). -/
def Val.spellShort : Val → Text
  | .holder h => holderShort h
  | .cls c => ascii (classShort c)
  | v => v.spell

/-- Texts joined by a separator. -/
def joinText (sep : Text) : List Text → Text
  | [] => []
  | [x] => x
  | x :: xs => x ++ sep ++ joinText sep xs

/-- The members of a field: joined by `/`, and `NONE` when there is none (spec 11, section 11.1; R184). -/
def membersText (ms : List Text) : Text := if ms.isEmpty then ascii "NONE" else joinText (ascii "/") ms

/-- A field spelled: `NAME=value`, or the bare value. -/
def Fld.spell (f : Fld) : Text :=
  (if f.key = "" then [] else ascii f.key ++ ascii "=") ++ membersText (f.vals.map Val.spell)

/-- A field in its compact spelling, without its name (log 15). -/
def Fld.spellShort (f : Fld) : Text := membersText (f.vals.map Val.spellShort)

/-- Tokens with a single space between them (spec 11, section 11.1). -/
def tokens (ts : List Text) : Text := joinText (ascii " ") ts

/-! ## Replies -/

/-- The tag of a line: `#` and a decimal. -/
def tagText (t : Nat) : Text := ascii "#" ++ decimal t

/-- A reply spelled: `#tag OK` and its fields, or `#tag NO CODE`; a reply that would pass 200 characters takes the
compact spelling (R184, log 15). -/
def Reply.spell (r : Reply) : Text :=
  match r.answer with
  | .no c => tokens [tagText r.tag, ascii "NO", ascii c.word]
  | .ok fs =>
    let full := tokens (tagText r.tag :: ascii "OK" :: fs.map Fld.spell)
    if full.length ≤ Config.lineLimit then full
    else tokens (tagText r.tag :: ascii "OK" :: fs.map Fld.spellShort)

/-! ## The stop record (R166, R184) -/

/-- Holders in the compact spelling, joined by commas (R184). -/
def holdersText (hs : List Holder) : Text :=
  if hs.isEmpty then ascii "NONE" else joinText (ascii ",") (hs.map holderShort)

/-- A value that may be absent. -/
def orNone {α : Type} (f : α → Text) : Option α → Text
  | some x => f x
  | none => ascii "NONE"

/-- The stop record line (R184). -/
def StopRecord.spell (r : StopRecord) : Text :=
  tokens
    [ascii "!STOP", ascii "EP=" ++ decimal r.episode, ascii "STATE=" ++ ascii r.state.word,
      ascii "HOLDERS=" ++ holdersText r.holders, ascii "FIRST=" ++ orNone holderText r.first,
      ascii "REASON=" ++ decimal r.reason, ascii "POS=" ++ orNone posText r.stopPos,
      ascii "TIME=" ++ orNone decimal r.stopTime, ascii "MARK=" ++ orNone id r.mark,
      ascii "CHASE=" ++ decimal r.count]

/-! ## Notices (R184) -/

/-- A field with one word. -/
def fw (key : String) (w : String) : Fld := ⟨key, [.word w]⟩

/-- A field with one number. -/
def fn (key : String) (n : Nat) : Fld := ⟨key, [.num n]⟩

/-- A field with a value that may be absent. -/
def fo {α : Type} (key : String) (f : α → Val) (o : Option α) : Fld := ⟨key, (o.map f).toList⟩

/-- The outcome of a TAP notice, with what it carries (R61, log 15). -/
def TapOutcome.fields : TapOutcome → List Fld
  | .matched p => [fw "OUTCOME" "MATCH", ⟨"POS", [.pos p]⟩]
  | .stray => [fw "OUTCOME" "STRAY"]
  | .unclassified => [fw "OUTCOME" "UNCLASSIFIED"]
  | .claim n => [fw "OUTCOME" "CLAIM", fn "COUNT" n]
  | .take c => [fw "OUTCOME" "TAKE", fw "CAUSE" c.word]
  | .ignored => [fw "OUTCOME" "IGNORED"]

/-- The fields of a beat mark in a BEAT or BAR notice (R174). The tempo is that of the mark's P, not of the engine's P when
the line is built: the model's choice (log 42). -/
def markFields (m : BeatMark) : List Fld :=
  [⟨"POS", [.pos m.pos]⟩, fw "KIND" m.kind.word, fn "PASS" m.pass, fn "TEMPO" (tempoShown m.period)] ++
    (match m.count with | some k => [fn "COUNT" k] | none => []) ++ [fn "T" m.time]

/-- A PATCH notice's fields (R116). -/
def patchFields (i : SlotId) (r : SlotRun) (h : Health) : List Fld :=
  [⟨"SLOT", [.slot i]⟩, fo "DESIRED" .num r.desired, fo "CONFIRMED" .num r.confirmed, fo "REQ" .num r.reqPatch,
    fw "STATE" r.req.word, fo "ATTEMPT" .num r.attempt, fw "STN" h.word]

/-- The cause, and the fields in the order of the raising rule with the time last (R184). Where the raising rule names
no cause the model chooses it: how a stage fired is the cause of a CUE notice and the outcome that of an EDIT notice; a
VAMP notice has as its cause the new release state, or LOOP, LEAVE or IGNORED; the outcome of a TAP notice stays a field
(R37, R61, R94, R96, log 15). -/
def Notice.fields : Notice → List Fld
  | .showCtl c b a ep mk t =>
    [fw "" c.word, fo "FROM" (fun s : ShowState => .word s.word) b, fw "TO" a.word, fn "EP" ep, fo "MARK" .name mk, fn "T" t]
  | .focus c a b st pin t =>
    [fw "" c.word, fo "HOLDER" (fun x : Src => .word x.word) a, fo "BEFORE" (fun x : Src => .word x.word) b,
      fo "STATUS" (fun x : HolderStatus => .word x.word) st, fw "PIN" (if pin then "SET" else "CLEAR"), fn "T" t]
  | .patch c i r h t =>
    match c with
    | .refused => fw "" "REFUSED" :: patchFields i r h ++ [fn "T" t]
    | .timeout => fw "" "TIMEOUT" :: patchFields i r h ++ [fn "T" t]
    | .late n p => fw "" "LATE" :: patchFields i r h ++ [⟨"CUE", [.cue n]⟩, fn "CUEPATCH" p, fn "T" t]
  | .station c n b r t =>
    [fw "" c.word, ⟨"STN", [.station n]⟩, fw "FROM" b.word, fw "TO" r.state.word, fn "FAULTS" r.faults,
      fo "ERROR" (fun e : LinkError => .word e.word) r.lastError, fn "SLOTS" r.slotCount, fn "T" t]
  | .align r s x =>
    [fn "ROOM" (r.val + 1), ⟨"NAME", [.name s.name]⟩, fn "CR" s.cr, fn "VR" s.vr,
      fo "OUT" (fun o : Fin 6 => .num (o.val + 1)) s.out, fo "DV" .num x.dv, fn "OC" x.oc, fn "SHORT" x.short,
      fw "COND" (if x.short = 0 then "OK" else "SHORT")]
  | .video c k outs t => [fw "" c.word, fw "CAMERA" k.word, ⟨"OUTS", outs.map .num⟩, fn "T" t]
  | .store c x t => [fw "" c.word, fw "IMAGE" x.word, fn "T" t]
  | .cue n st how p k t =>
    [fw "" how.word, ⟨"CUE", [.cue n]⟩, fw "STAGE" st.word, fo "POINT" .tpos p, fn "ACTIONS" k, fn "T" t]
  | .cueUnplaced n p => [fw "" "UNPLACED", ⟨"CUE", [.cue n]⟩, ⟨"AT", [.tpos p]⟩]
  | .beat m | .bar m => markFields m
  | .vamp e =>
    match e with
    | .release r pass b => [fw "" r.word, fn "PASS" pass, fn "BAR" b]
    | .loop pass r => [fw "" "LOOP", fn "PASS" pass, fw "RELEASE" r.word]
    | .leave pass => [fw "" "LEAVE", fn "PASS" pass]
    | .ignored n => [fw "" "IGNORED", ⟨"STN", [.station n]⟩]
  | .edit n sts o p run =>
    [fw "" o.word, ⟨"CUE", [.cue n]⟩, ⟨"STAGE", sts.map fun s => .word s.word⟩, fo "POINT" .tpos p, fo "CURSOR" .pos run]
  | .tap x o t => fw "SRC" x.word :: o.fields ++ [fn "T" t]

/-- A notice line: `!CLASS`, its cause and its fields (spec 11, section 11.1; R184). -/
def Notice.spell (n : Notice) : Text := tokens ((ascii "!" ++ ascii n.cls.word) :: n.fields.map Fld.spell)

/-- A line the part sends, before its CR LF (R184). -/
def OutLine.spell : OutLine → Text
  | .reply r => r.spell
  | .record r => r.spell
  | .notice n => n.spell

/-- A line as it goes out: the characters, CR and LF (spec 11, section 11.1). -/
def OutLine.sent (l : OutLine) : Text := l.spell ++ [13#8, 10#8]

end Sys2Proof.Machine
end

