-- ==== Sys2Proof/Machine/Beat.lean ====
section
/-! DEFINITION. The commands of the Beat Engine and of the Source Arbiter: settings, the due beat, vamp releases, taps,
window closes, pin and free (spec 02, spec 03). -/

namespace Sys2Proof.Machine

/-! ## Beat Engine settings and vamp releases (R18, R35) -/

/-- The engine settings an ENGINE.SET line leaves (R18). -/
def engineOf (old : EngineSet) (f : EngineFields) : EngineSet :=
  ⟨f.w.getD old.w, f.kt.getD old.kt, f.kp.getD old.kp, f.s.getD old.s, f.c.getD old.c⟩

/-- The five engine settings in a reply (R18). -/
def EngineSet.fields (e : EngineSet) : List Fld := [fn "W" e.w, fn "KT" e.kt, fn "KP" e.kp, fn "S" e.s, fn "C" e.c]

/-- ENGINE.SET: the settings, and every claim count above a new C lowered to it (R18). -/
def Dev.engineSet (f : EngineFields) (d : Dev) : Dev × Answer :=
  if d.store.writing then (d, .no .busy)
  else
    let new := engineOf d.data.engine f
    ((d.setData { d.data with engine := new }).setArb (d.arb.capClaims new.c), .ok new.fields)

/-- VAMP.OUT (R35). -/
def Dev.vampOut (d : Dev) : Dev × Answer :=
  match d.vampNow with
  | some (e, w) =>
    let d := d.releaseVamp e w
    (d, .ok [fw "" d.eng.rel.word])
  | none => (d, .no .notVamp)

/-- A permitted VAMPOUT report (R35, R37). -/
def Dev.vampReport (d : Dev) (n : Fin 16) : Dev :=
  match d.vampNow with
  | some (e, w) => d.releaseVamp e w
  | none => d.raise (.vamp (.ignored n))

/-! ## The due beat (R20) -/

/-- The due time, when the engine counts or runs and the clock has reached it (R20). -/
def Dev.beatTime (d : Dev) : Option Time :=
  match d.eng.st, d.eng.due with
  | .count, some n | .run, some n => if n ≤ d.clock then some n else none
  | _, _ => none

/-- The due event: the beat is emitted at its due time (R20). -/
def Dev.beatIsDue (d : Dev) : Dev :=
  match d.beatTime with
  | some n => d.emit n false
  | none => d

/-! ## Beat sources (R45, R46) -/

/-- The settings an SRC.SET line leaves a source with, but for its rank (R46). -/
def srcOf (old : SrcSet) (f : SrcFields) : SrcSet where
  rank := old.rank
  edge := f.edge.or old.edge
  debounce := f.debounce.getD old.debounce
  camera := match f.camera with | some (.cam c) => some c | some .none => none | none => old.camera
  name := f.name.getD old.name

/-- Ranks after source `x` takes rank `r`: the source that held it takes `x`'s old rank (R46). -/
def exchangeRank (srcs : PerSrc SrcSet) (x : Src) (r : Nat) : PerSrc SrcSet :=
  let old := (srcs.get x).rank
  srcs.mapAll fun y s => if y = x then { s with rank := r } else if s.rank = r then { s with rank := old } else s

/-- The other source a rank is exchanged with, if any (R46). -/
def rankHolder (srcs : PerSrc SrcSet) (x : Src) (r : Nat) : Option Src :=
  Src.all.find? fun y => y != x && (srcs.get y).rank == r

/-- A source and its rank in a reply (R46). -/
def rankFields (srcs : PerSrc SrcSet) (x : Src) : List Fld := [fw "" x.word, fn "RANK" (srcs.get x).rank]

/-- SRC.SET (R46). With no rank exchanged the reply is the source and its rank alone: the model's choice (log 33). -/
def Dev.srcSet (x : Src) (f : SrcFields) (d : Dev) : Dev × Answer :=
  if d.store.writing then (d, .no .busy)
  else
    let old := d.data.srcs
    let written := old.set x (srcOf (old.get x) f)
    let new := match f.rank with | some r => exchangeRank written x r | none => written
    let other := f.rank.bind (rankHolder old x)
    let d := d.setData { d.data with srcs := new }
    let changed := (old.get x).camera != (new.get x).camera || (old.get x).name != (new.get x).name
    let d := if changed && d.arb.holder == some x then d.hand [.focusHandoverVideo (some (d.focusHand x))] else d
    (d, .ok (rankFields new x ++ (match other with | some y => rankFields new y | none => [])))

/-- SRC.GET (R46). -/
def Dev.srcGet (x : Src) (d : Dev) : Dev × Answer :=
  let s := d.data.srcs.get x
  let r := d.arb.srcs.get x
  let holds := d.arb.holder == some x
  (d, .ok <|
    [fw "" x.word, fn "RANK" s.rank, fo "EDGE" (fun e : EdgeSel => .word e.word) s.edge, fn "DEBOUNCE" s.debounce,
      fo "CAMERA" (fun c : Cam => .word c.word) s.camera, fld "NAME" (.name s.name), fn "TAPS" r.taps,
      fn "BOUNCES" r.bounces, fn "STRAYS" r.strays, fn "CLAIMS" r.claims,
      fo "CLAIMBEAT" (fun b : BeatRef => .pos b.pos) r.claimBeat, fo "CLAIMTAP" .num r.claimTap,
      fo "LAST" .num r.lastTap, fw "HOLDER" (yesNo holds)] ++
    (if holds then
      [fo "STATUS" (fun h : HolderStatus => .word h.word) d.arb.status, fw "PIN" (if d.arb.pin then "SET" else "CLEAR")]
    else []))

/-! ## Focus and taps (R47, R48, R52, R53, R59) -/

/-- FOCUS.PIN (R59). -/
def Dev.focusPin (x : Src) (d : Dev) : Dev × Answer := (d.pinFocus x, .ok [fw "" x.word])

/-- FOCUS.FREE, with CLEAR or without (R59). -/
def Dev.focusFree (clear : Bool) (d : Dev) : Dev × Answer := (if clear then d.clearFocus else d.freeFocus, .ok [])

/-- TAP, with the time its line's LF arrived (R48). -/
def Dev.portTap (t : Time) (d : Dev) : Dev × Answer :=
  let ok := accepts (d.arb.srcs.get .port).lastTap (d.data.srcs.get .port).debounce t
  (d.frontEnd .port t, .ok [fw "" (if ok then "ACCEPTED" else "BOUNCE"), bare (.num t)])

/-- An edge of a tap line (R47). -/
def Dev.lineEdge (d : Dev) (k : Fin 4) (dir : EdgeDir) : Dev :=
  let x := Src.ofLine k
  if selects (d.data.srcs.get x).edge dir then d.frontEnd x d.clock else d

/-- The window close that comes first, when its time has come (R29). -/
def Dev.closeNow (d : Dev) : Option Close :=
  match firstClose d.eng.closes with
  | some c => if c.due ≤ d.clock then some c else none
  | none => none

/-- A window close reaches the Source Arbiter: the holder, then the claims (R52, R53). -/
def Dev.takeClose (d : Dev) : Dev :=
  match d.closeNow with
  | some c => ((d.setEng { d.eng with closes := d.eng.closes.erase c }).closeHolder c).closeClaims c
  | none => d

/-! ## The commands -/

/-- ENGINE_SET (R18). -/
def execEngineSet (tag : Nat) (f : EngineFields) (s : State) : Host.Outcome State Fault Refusal :=
  s.request (.engineSet tag f) tag (Dev.engineSet f)

/-- VAMP_OUT (R35). -/
def execVampOut (tag : Nat) (s : State) : Host.Outcome State Fault Refusal :=
  s.request (.vampOut tag) tag Dev.vampOut

/-- BEAT_DUE (R20). -/
def execBeatDue (s : State) : Host.Outcome State Fault Refusal := s.run Dev.beatIsDue

/-- VAMPOUT (R35, R37). -/
def execVampoutReport (n : Fin 16) (s : State) : Host.Outcome State Fault Refusal :=
  s.run fun d => (d.take (.vampoutReport n)).vampReport n

/-- SRC_SET (R46). -/
def execSrcSet (tag : Nat) (x : Src) (f : SrcFields) (s : State) : Host.Outcome State Fault Refusal :=
  s.request (.srcSet tag x f) tag (Dev.srcSet x f)

/-- SRC_GET (R46). -/
def execSrcGet (tag : Nat) (x : Src) (s : State) : Host.Outcome State Fault Refusal :=
  s.request (.srcGet tag x) tag (Dev.srcGet x)

/-- FOCUS_PIN (R59). -/
def execFocusPin (tag : Nat) (x : Src) (s : State) : Host.Outcome State Fault Refusal :=
  s.request (.focusPin tag x) tag (Dev.focusPin x)

/-- FOCUS_FREE (R59). -/
def execFocusFree (tag : Nat) (clear : Bool) (s : State) : Host.Outcome State Fault Refusal :=
  s.request (.focusFree tag clear) tag (Dev.focusFree clear)

/-- TAP (R48). -/
def execTap (tag : Nat) (t : Time) (s : State) : Host.Outcome State Fault Refusal :=
  s.request (.tap tag t) tag (Dev.portTap t)

/-- TAP_LINE_EDGE (R47). -/
def execTapLineEdge (line : Fin 4) (dir : EdgeDir) (s : State) : Host.Outcome State Fault Refusal :=
  s.run fun d => d.lineEdge line dir

/-- WINDOW_CLOSE (R52, R53). -/
def execWindowClose (s : State) : Host.Outcome State Fault Refusal := s.run Dev.takeClose

end Sys2Proof.Machine
end

