-- ==== Sys2Proof/Machine/Cues.lean ====
section
/-! DEFINITION. The Cue Scheduler's commands: cue edits and readings, manual fire, notes, the beat mark in the run,
pending times and the entry into STOPPED (spec 05). -/

namespace Sys2Proof.Machine

/-! ## Edits (R79 to R83, R93, R94) -/

/-- The cue a CUE.PUT line gives (R79, R82). -/
def cueOf (f : CueFields) : Cue := ⟨f.num, f.pos, f.lead.getD 0, f.actions⟩

/-- How many actions a number's cue holds; none when there is no such cue (R82). -/
def actionsOf (cs : List Cue) (n : Nat) : Nat := ((findCue cs n).map fun c => c.actions.length).getD 0

/-- CUE.PUT (R82, R93, R94). -/
def Dev.cuePut (f : CueFields) (d : Dev) : Dev × Answer :=
  let c := cueOf f
  let cues := d.data.cues
  if d.store.writing then (d, .no .busy)
  else if (findCue cues c.num).isNone && Config.cueCapacity ≤ cues.length then (d, .no .full)
  else if Config.actionCapacity < poolSize cues - actionsOf cues c.num + c.actions.length then (d, .no .full)
  else
    let d := d.putCue c
    (d, .ok [bare (.cue c.num), fn "CUES" d.data.cues.length, fn "ACTIONS" (poolSize d.data.cues)])

/-- CUE.DEL (R83, R94). -/
def Dev.cueDel (n : Nat) (d : Dev) : Dev × Answer :=
  if d.store.writing then (d, .no .busy)
  else
    match findCue d.data.cues n with
    | none => (d, .no .notFound)
    | some c =>
      let d := d.deleteCue c
      (d, .ok [bare (.num d.data.cues.length)])

/-! ## Readings (R83) -/

/-- An action as CUE.GET sends it, in the shape of the examples of CUE.PUT (R83, R184). DESIGN CHOICE, unsafe (log 45):
a LANE action with no subdivision is sent with two members, `LANE=8/MUTE`, and not with `NONE` for the third. -/
def Action.field : Action → Fld
  | .patch a => ⟨"PATCH", [.hex a.part, .num a.patch]⟩
  | .note none => fw "NOTE" "CLEAR"
  | .note (some n) => fn "NOTE" n.val
  | .lane l m s => ⟨"LANE", [.num (l.val + 1), .word m.word] ++ (s.map Val.num).toList⟩

/-- The reply about one cue (R83). -/
def Dev.cueReply (d : Dev) (c : Cue) : Answer :=
  let r := d.sched.run c.num
  .ok <|
    [bare (.cue c.num), fld "AT" (.tpos c.pos), fn "LEAD" c.lead] ++ c.actions.map Action.field ++
      [fo "SEND" .tpos r.send, fo "PLACE" (fun p : Placement => .word p.word) r.placement,
        fw "SENDSTAGE" r.sendCond.word, fw "ATSTAGE" r.atCond.word]

/-- The cue after a number's in list order, if the number's cue is in the list (R83). -/
def cueAfter (n : Nat) : List Cue → Option Cue
  | [] => none
  | c :: cs => if c.num = n then cs.head? else cueAfter n cs

/-- CUE.GET (R83). -/
def Dev.cueGet (q : CueQuery) (d : Dev) : Dev × Answer :=
  let cues := d.data.cues
  let one (o : Option Cue) : Dev × Answer :=
    match o with
    | some c => (d, d.cueReply c)
    | none => (d, .no .notFound)
  match q with
  | .summary =>
    (d, .ok [fn "CUES" cues.length, fn "ACTIONS" (poolSize cues), fo "NEXT" (fun c : Cue => .cue c.num) d.nextCue])
  | .num n => one (findCue cues n)
  | .first => one cues.head?
  | .after n => one (cueAfter n cues)

/-! ## Manual fire (R95) and notes (R81) -/

/-- The stages of a cue that are not FIRED, SEND before AT (R95). -/
def unfired (r : CueRun) : List Stage := ([.send, .atCue] : List Stage).filter fun st => r.cond st != .fired

/-- CUE.FIRE (R95). -/
def Dev.cueFire (n : Nat) (d : Dev) : Dev × Answer :=
  match findCue d.data.cues n with
  | none => (d, .no .notFound)
  | some c =>
    let stages := unfired (d.sched.run n)
    (stages.foldl (fun d st => d.fireStage .fire c st) d,
      .ok [bare (.cue n), ⟨"STAGES", stages.map fun st => .word st.word⟩])

/-- NOTE.PUT (R81). -/
def Dev.notePut (i : Fin 64) (t : Text) (d : Dev) : Dev × Answer :=
  if d.store.writing then (d, .no .busy)
  else
    (d.setData { d.data with notes := d.data.notes.set i t }, .ok [bare (.num i.val), fn "LEN" t.length])

/-! ## The commands -/

/-- CUE_PUT (R82). -/
def execCuePut (tag : Nat) (f : CueFields) (s : State) : Host.Outcome State Fault Refusal :=
  s.request (.cuePut tag f) tag (Dev.cuePut f)

/-- CUE_DEL (R83). -/
def execCueDel (tag num : Nat) (s : State) : Host.Outcome State Fault Refusal :=
  s.request (.cueDel tag num) tag (Dev.cueDel num)

/-- CUE_GET (R83). -/
def execCueGet (tag : Nat) (q : CueQuery) (s : State) : Host.Outcome State Fault Refusal :=
  s.request (.cueGet tag q) tag (Dev.cueGet q)

/-- CUE_FIRE (R95). -/
def execCueFire (tag num : Nat) (s : State) : Host.Outcome State Fault Refusal :=
  s.request (.cueFire tag num) tag (Dev.cueFire num)

/-- NOTE_PUT (R81). -/
def execNotePut (tag : Nat) (idx : Fin 64) (text : Text) (s : State) : Host.Outcome State Fault Refusal :=
  s.request (.notePut tag idx text) tag (Dev.notePut idx text)

/-- BEAT_MARK_CUE (R87, R88, R89). -/
def execBeatMarkCue (m : BeatMark) (s : State) : Host.Outcome State Fault Refusal :=
  s.run fun d => (d.take (.beatMarkCue m)).cueBeat m

/-- STAGE_PENDING_TIME (R88): every PENDING stage whose time has been reached fires, in firing order. It fires until
CUE_STOP is taken, though the Show Controller has entered STOPPED already: the model's choice (log 41). -/
def execStagePendingTime (s : State) : Host.Outcome State Fault Refusal := s.run Dev.fireTicks

/-- CUE_STOP (R91). -/
def execCueStop (s : State) : Host.Outcome State Fault Refusal := s.run fun d => (d.take .cueStop).cueStopped

end Sys2Proof.Machine
end

