-- ==== Sys2Proof/Machine/Form.lean ====
section
/-! DEFINITION. The Form Table and the Mark Table: their edits and their readings (spec 01). -/

namespace Sys2Proof.Machine

/-! ## The gates of a form or mark edit (R5) -/

/-- The state check and the BUSY check of a form or mark edit (R5). -/
def Dev.editGate (d : Dev) : Option Code :=
  match d.ctl.state with
  | .arming | .ready | .countIn | .running => some .state
  | .dark | .done | .stopped => if d.store.writing then some .busy else none

/-- A form or mark edit taken in STOPPED clears the armed mark and the run context (R5, R91). -/
def Dev.editTaken (d : Dev) : Dev := if d.ctl.state = .stopped then d.clearArmed.clearRun else d

/-! ## The Form Table (R1, R6, R7, R8) -/

/-- A position put at its place in position order (R1). -/
def insertPos (p : Pos) : List Pos → List Pos
  | [] => [p]
  | q :: qs => if p.before q then p :: q :: qs else q :: insertPos p qs

/-- The entry a FORM.PUT line gives, with the defaults of R1 and its holds in position order. -/
def entryOf (f : FormFields) : FormEntry where
  first := f.first
  count := f.count
  meter := f.meter
  nominal := f.nominal
  policy := f.policy.getD (if f.nominal.isSome then .nominal else .keep)
  band := f.band.getD 0
  mode := f.mode.getD .follow
  vamp := f.vamp
  holds := f.holds.foldr insertPos []
  actEnd := f.actEnd

/-- Whether no member of a list stands in it twice. -/
def distinct : List Pos → Bool
  | [] => true
  | p :: ps => !ps.contains p && distinct ps

/-- The conditions between the fields of an entry (R1). -/
def FormEntry.agrees (e : FormEntry) : Bool :=
  e.last ≤ 9999 && (e.policy == .keep || e.nominal.isSome) && (e.band == 0 || e.nominal.isSome) &&
    (e.vamp.isNone || (e.holds.isEmpty && !e.actEnd)) &&
    (match e.vamp with | some w => decide (w < e.count) | none => true) &&
    e.holds.all (fun p => e.hasBar p.bar && p.beat ≤ e.meter) && distinct e.holds

/-- Whether two entries have a bar in common (R6). -/
def FormEntry.overlaps (a b : FormEntry) : Bool := a.first ≤ b.last && b.first ≤ a.last

/-- An entry put at its place in bar order, in place of one with the same first bar (R6). -/
def putEntry (e : FormEntry) : List FormEntry → List FormEntry
  | [] => [e]
  | x :: xs =>
    if e.first < x.first then e :: x :: xs
    else if e.first = x.first then e :: xs
    else x :: putEntry e xs

/-- The index of the entry with a first bar, counted from 1 (R2). -/
def indexOfFirst (b : Nat) (form : List FormEntry) : Nat := form.findIdx (fun e => e.first == b) + 1

/-- FORM.PUT (R6). -/
def Dev.formPut (f : FormFields) (d : Dev) : Dev × Answer :=
  let e := entryOf f
  if !e.agrees then (d, .no .range)
  else
    match d.editGate with
    | some c => (d, .no c)
    | none =>
      let form := d.data.form
      if form.any fun x => x.first != e.first && x.overlaps e then (d, .no .overlap)
      else if !(form.any fun x => x.first == e.first) && Config.formCapacity ≤ form.length then (d, .no .full)
      else
        let form := putEntry e form
        ((d.setData { d.data with form := form }).editTaken, .ok [bare (.num (indexOfFirst e.first form))])

/-- FORM.DEL (R7). -/
def Dev.formDel (b : Nat) (d : Dev) : Dev × Answer :=
  match d.editGate with
  | some c => (d, .no c)
  | none =>
    if d.data.form.any fun x => x.first == b then
      let form := d.data.form.filter fun x => x.first != b
      ((d.setData { d.data with form := form }).editTaken, .ok [bare (.num form.length)])
    else (d, .no .notFound)

/-- The reply about one entry: its index, the fields it has, and its P limits (R8, log 14). An entry with several holds
repeats HOLD=, once per hold, as the request does: the model's choice (log 15). -/
def entryReply (i : Nat) (e : FormEntry) : Answer :=
  .ok <|
    [bare (.num i), fn "BAR" e.first, fn "BARS" e.count, fn "METER" e.meter] ++
      (match e.nominal with | some n => [fn "PERIOD" n] | none => []) ++
      [fw "POLICY" e.policy.word, fn "BAND" e.band, fw "MODE" e.mode.word] ++
      (match e.vamp with | some w => [fn "VAMP" w] | none => []) ++ e.holds.map (fun p => fld "HOLD" (.pos p)) ++
      (if e.actEnd then [fw "" "END"] else []) ++ [fn "LO" e.limits.1, fn "HI" e.limits.2]

/-- FORM.GET (R8). -/
def Dev.formGet (q : FormQuery) (d : Dev) : Dev × Answer :=
  let form := d.data.form
  match q with
  | .summary => (d, .ok [bare (.num form.length), fn "LAST" (lastBar form), fw "COVER" (yesNo (covered form))])
  | .bar b =>
    match entryOfBar form b with
    | some (i, e) => (d, entryReply i e)
    | none => (d, .no .notFound)
  | .after b =>
    match form.find? fun e => b < e.first with
    | some e => (d, entryReply (indexOfFirst e.first form) e)
    | none => (d, .no .notFound)

/-! ## The Mark Table (R11 to R13) -/

/-- The mark a MARK.PUT line gives, with the defaults of R11. -/
def markOf (f : MarkFields) : Mark := ⟨f.name, f.pos, f.countIn.getD 1, f.tempo⟩

/-- Table order: by position, then by name (R11). -/
def Mark.before (a b : Mark) : Bool := a.pos.before b.pos || (a.pos == b.pos && textBefore a.name b.name)

/-- A mark put at its place in table order (R11). -/
def insertMark (m : Mark) : List Mark → List Mark
  | [] => [m]
  | x :: xs => if m.before x then m :: x :: xs else x :: insertMark m xs

/-- The mark with a name (R11). -/
def findMark (ms : List Mark) (n : Text) : Option Mark := ms.find? fun m => m.name == n

/-- MARK.PUT (R12). -/
def Dev.markPut (f : MarkFields) (d : Dev) : Dev × Answer :=
  match d.editGate with
  | some c => (d, .no c)
  | none =>
    let old := d.data.marks
    if (findMark old f.name).isNone && Config.markCapacity ≤ old.length then (d, .no .full)
    else
      let marks := insertMark (markOf f) (old.filter fun m => m.name != f.name)
      ((d.setData { d.data with marks := marks }).editTaken, .ok [bare (.num marks.length)])

/-- MARK.DEL (R13). -/
def Dev.markDel (n : Text) (d : Dev) : Dev × Answer :=
  match d.editGate with
  | some c => (d, .no c)
  | none =>
    if (findMark d.data.marks n).isSome then
      let marks := d.data.marks.filter fun m => m.name != n
      ((d.setData { d.data with marks := marks }).editTaken, .ok [bare (.num marks.length)])
    else (d, .no .notFound)

/-- The reply about one mark (R13, log 14). -/
def markReply (m : Mark) : Answer :=
  .ok <|
    [fld "NAME" (.name m.name), fld "AT" (.pos m.pos), fn "COUNTIN" m.countIn] ++
      (match m.tempo with | some p => [fn "TEMPO" p] | none => [])

/-- The mark that follows a named one in table order, if the named one is present (R13). -/
def markAfter (n : Text) : List Mark → Option Mark
  | [] => none
  | m :: ms => if m.name = n then ms.head? else markAfter n ms

/-- The mark MARK.GET reads (R13). -/
def MarkQuery.find (ms : List Mark) : MarkQuery → Option Mark
  | .named n => findMark ms n
  | .first => ms.head?
  | .after n => markAfter n ms

/-- MARK.GET (R13). -/
def Dev.markGet (q : MarkQuery) (d : Dev) : Dev × Answer :=
  match MarkQuery.find d.data.marks q with
  | some m => (d, markReply m)
  | none => (d, .no .notFound)

/-! ## The commands -/

/-- FORM_PUT (R6). -/
def execFormPut (tag : Nat) (f : FormFields) (s : State) : Host.Outcome State Fault Refusal :=
  s.request (.formPut tag f) tag (Dev.formPut f)

/-- FORM_DEL (R7). -/
def execFormDel (tag bar : Nat) (s : State) : Host.Outcome State Fault Refusal :=
  s.request (.formDel tag bar) tag (Dev.formDel bar)

/-- FORM_GET (R8). -/
def execFormGet (tag : Nat) (q : FormQuery) (s : State) : Host.Outcome State Fault Refusal :=
  s.request (.formGet tag q) tag (Dev.formGet q)

/-- MARK_PUT (R12). -/
def execMarkPut (tag : Nat) (f : MarkFields) (s : State) : Host.Outcome State Fault Refusal :=
  s.request (.markPut tag f) tag (Dev.markPut f)

/-- MARK_DEL (R13). -/
def execMarkDel (tag : Nat) (name : Text) (s : State) : Host.Outcome State Fault Refusal :=
  s.request (.markDel tag name) tag (Dev.markDel name)

/-- MARK_GET (R13). -/
def execMarkGet (tag : Nat) (q : MarkQuery) (s : State) : Host.Outcome State Fault Refusal :=
  s.request (.markGet tag q) tag (Dev.markGet q)

end Sys2Proof.Machine
end

