-- ==== Sys2Proof/Machine/Link.lean ====
section
/-! DEFINITION. The Link Controller's commands: station settings and readings, polls and beacons coming due, and the
completions of the five kinds of frame (spec 07). -/

namespace Sys2Proof.Machine

/-! ## Stations (R130, R135) -/

/-- The reply about a station: every field of R130 (R135). -/
def Dev.stationReply (d : Dev) (n : Fin 16) : Answer :=
  let r := d.station n
  .ok
    [bare (.station n), fw "STATE" r.state.word, fn "FAULTS" r.faults, fn "POLLS" r.polls, fn "SLOTS" r.slotCount,
      fw "VAMPOUT" d.data.perms[n].word, fo "ERROR" (fun e : LinkError => .word e.word) r.lastError,
      fn "STALE" r.stale]

/-- STATION.SET (R135). -/
def Dev.stationSet (n : Fin 16) (p : Permission) (d : Dev) : Dev × Answer :=
  if d.store.writing then (d, .no .busy)
  else
    let d := d.setData { d.data with perms := d.data.perms.set n p }
    (d, d.stationReply n)

/-- STATION.GET (R135). -/
def Dev.stationGet (n : Fin 16) (d : Dev) : Dev × Answer := (d, d.stationReply n)

/-! ## Frame completions (R120, R123 to R128, R134) -/

/-- Whether a frame was started in the current epoch (R134). -/
def Dev.fresh? (d : Dev) (f : Frame) : Bool := f.tag == d.link.epoch

/-- A BEACON completes: the line is IDLE, and nothing else changes (R123). -/
def Dev.beaconComplete (d : Dev) : Dev :=
  match d.link.line with
  | some ⟨.beacon, _, _⟩ => d.freeLine
  | _ => d

/-- A PATCH frame completes: its outcome goes to the Slot Manager, and its status counts toward the station's health
unless the frame was started before a RESET (R124, R131, R134). -/
def Dev.patchComplete (d : Dev) (st : FrameStatus) : Dev :=
  match d.link.line with
  | some f =>
    match f.kind with
    | .patch i p =>
      let d1 := d.freeLine.hand [.patchOutcome i p st]
      if d.fresh? f then d1.countStatus i.station st else d1
    | _ => d
  | none => d

/-- STOP pending after a STOP frame of an episode completes (R125). -/
def stopAfter (pending : Option StopPending) (episode : Nat) (st : FrameStatus) : Option StopPending :=
  match pending with
  | none => none
  | some p =>
    if p.episode != episode then some p
    else
      match st with
      | .check => if p.sends < Config.stopSends then some p else none
      | .ack | .retry | .silent => none

/-- A STOP frame completes (R125). -/
def Dev.stopComplete (d : Dev) (st : FrameStatus) : Dev :=
  match d.link.line with
  | some f =>
    match f.kind with
    | .stop ep =>
      let d := d.freeLine
      d.setLink { d.link with stopPending := stopAfter d.link.stopPending ep st }
    | _ => d
  | none => d

/-- The CLEAR list after a CLEAR frame to a station completes (R126). -/
def clearsAfter (l : List ClearEntry) (n : Fin 16) (st : FrameStatus) : List ClearEntry :=
  match st with
  | .ack => l.filter fun c => c.station != n
  | .retry | .check | .silent => l.map fun c => if c.station = n then { c with ready := false } else c

/-- A CLEAR frame completes; one started before a RESET changes nothing (R126, R131, R134). -/
def Dev.clearComplete (d : Dev) (st : FrameStatus) : Dev :=
  match d.link.line with
  | some f =>
    match f.kind with
    | .clear n =>
      let d1 := d.freeLine
      if d.fresh? f then
        (d1.setLink { d1.link with clears := clearsAfter d1.link.clears n st }).countStatus n st
      else d1
    | _ => d
  | none => d

/-- A POLL completes: with ACK in the current epoch its reply block is taken, and every WAITING CLEAR is READY again
(R126, R127, R128, R134). -/
def Dev.pollComplete (d : Dev) (st : FrameStatus) (block : List Byte) : Dev :=
  match d.link.line with
  | some f =>
    match f.kind with
    | .poll =>
      let d1 := d.freeLine
      (if d.fresh? f && st == .ack then d1.takeBlock block else d1).wakeClears
    | _ => d
  | none => d

/-! ## The commands -/

/-- STATION_SET (R135). -/
def execStationSet (tag : Nat) (n : Fin 16) (p : Permission) (s : State) : Host.Outcome State Fault Refusal :=
  s.request (.stationSet tag n p) tag (Dev.stationSet n p)

/-- STATION_GET (R135). -/
def execStationGet (tag : Nat) (n : Fin 16) (s : State) : Host.Outcome State Fault Refusal :=
  s.request (.stationGet tag n) tag (Dev.stationGet n)

/-- POLL_DUE (R122): a POLL that is due is ranked by the transmit arbiter. -/
def execPollDue (s : State) : Host.Outcome State Fault Refusal :=
  s.run fun d => if d.pollIsDue then d.startFrame else d

/-- BEACON_DUE (R122): a BEACON that is due is ranked by the transmit arbiter, behind a POLL that came due at the same
instant (the model's choice, log 37). -/
def execBeaconDue (s : State) : Host.Outcome State Fault Refusal :=
  s.run fun d => if d.beaconIsDue then d.startFrame else d

/-- BEACON_FRAME_COMPLETE (R123): no state depends on the status. -/
def execBeaconFrameComplete (_status : Byte) (s : State) : Host.Outcome State Fault Refusal := s.run Dev.beaconComplete

/-- PATCH_FRAME_COMPLETE (R124). -/
def execPatchFrameComplete (status : Byte) (s : State) : Host.Outcome State Fault Refusal :=
  s.run fun d => d.patchComplete (readStatus status)

/-- STOP_FRAME_COMPLETE (R125). -/
def execStopFrameComplete (status : Byte) (s : State) : Host.Outcome State Fault Refusal :=
  s.run fun d => d.stopComplete (broadcastStatus status)

/-- CLEAR_FRAME_COMPLETE (R126). -/
def execClearFrameComplete (status : Byte) (s : State) : Host.Outcome State Fault Refusal :=
  s.run fun d => d.clearComplete (readStatus status)

/-- POLL_FRAME_COMPLETE (R128). -/
def execPollFrameComplete (status : Byte) (block : List Byte) (s : State) : Host.Outcome State Fault Refusal :=
  s.run fun d => d.pollComplete (broadcastStatus status) block

end Sys2Proof.Machine
end

