-- ==== Sys2Proof/Machine/Grammar.lean ====
section
/-! DEFINITION. How a request line is read: its tag, its mnemonic, its operands, named fields and flags, and the
spelling of every value (spec 10 R168, R169; spec 11 section 11.1, R183). -/

namespace Sys2Proof.Machine

/-! ## Outcomes of reading: SYNTAX comes before RANGE (R169) -/

/-- The outcome of reading a value or a line. -/
inductive Rd (α : Type) | syntaxErr | range | ok (a : α)

/-- A function of a value read. -/
def Rd.map {α β : Type} (f : α → β) : Rd α → Rd β
  | .syntaxErr => .syntaxErr
  | .range => .range
  | .ok a => .ok (f a)

/-- Two readings of one line: SYNTAX in either, else RANGE in either, else both (R169). -/
def Rd.ap {α β : Type} (f : Rd (α → β)) (x : Rd α) : Rd β :=
  match f, x with
  | .syntaxErr, _ | _, .syntaxErr => .syntaxErr
  | .range, _ | _, .range => .range
  | .ok f, .ok a => .ok (f a)

/-- Every reading of a list. -/
def Rd.all {α : Type} : List (Rd α) → Rd (List α)
  | [] => .ok []
  | x :: xs => ((Rd.ok List.cons).ap x).ap (Rd.all xs)

/-- A value that must not be absent. -/
def Rd.orRange {α : Type} : Option α → Rd α
  | some a => .ok a
  | none => .range

/-! ## Characters and tokens -/

/-- A letter in its capital (R183). -/
def upper (b : Byte) : Byte := if within 97 122 b.toNat then b - 32#8 else b

/-- A decimal digit. -/
def isDigit (b : Byte) : Bool := within 48 57 b.toNat

/-- The value of a hex digit. -/
def hexValue (b : Byte) : Option Nat :=
  let c := (upper b).toNat
  if within 48 57 c then some (c - 48) else if within 65 70 c then some (c - 55) else none

/-- A character of a keyword. -/
def wordChar (b : Byte) : Bool := nameChar b || b == 95#8

/-- A character a line may hold (spec 11, section 11.1). -/
def lineChar (b : Byte) : Bool := within 32 126 b.toNat

/-- The tokens of the fields, with letters outside texts in capitals; none when a text has no closing quote (R183). -/
def tokenise : Bool → Text → Text → Option (List Text)
  | inText, cur, [] => if inText then none else some [cur.reverse]
  | true, cur, b :: bs => tokenise (b != 34#8) (b :: cur) bs
  | false, cur, b :: bs =>
    if b = 32#8 then (tokenise false [] bs).map fun l => cur.reverse :: l
    else if b = 34#8 then tokenise true (b :: cur) bs
    else tokenise false (upper b :: cur) bs

/-- A text cut at each place where a separator stands. -/
def splitAt (sep : Byte) : Text → List Text
  | [] => [[]]
  | b :: bs =>
    let rest := splitAt sep bs
    if b = sep then [] :: rest
    else
      match rest with
      | r :: rs => (b :: r) :: rs
      | [] => [[b]]

/-- The operands, named fields and flags of a line (spec 11, section 11.1). -/
structure Args where
  ops   : List Text
  named : List (Text × Text)
  flags : List Text

/-- Whether a token is a named field. -/
def isNamed (t : Text) : Bool := t.contains 61#8

/-- A named field cut at its first `=`. -/
def cutNamed (t : Text) : Text × Text := (t.takeWhile (· != 61#8), (t.dropWhile (· != 61#8)).drop 1)

/-- How many of the first tokens are operands. -/
def leading : Nat → List Text → Nat
  | 0, _ => 0
  | _ + 1, [] => 0
  | n + 1, t :: ts => if isNamed t then 0 else leading n ts + 1

/-- Whether no member of a list of texts stands in it twice. -/
def noTwice : List Text → Bool
  | [] => true
  | t :: ts => !ts.contains t && noTwice ts

/-- The fields of a line taken apart by what its request has: at most `n` operands, the named fields `keys` once each
and `lists` any number of times, and the flags (R169, R183). -/
def shape (n : Nat) (keys lists flags : List String) (ts : List Text) : Option Args :=
  let k := leading n ts
  let rest := ts.drop k
  let named := (rest.filter isNamed).map cutNamed
  let bareToks := rest.filter fun t => !isNamed t
  let keys := keys.map ascii
  let lists := lists.map ascii
  if named.all (fun x => keys.contains x.1 || lists.contains x.1) &&
      noTwice ((named.map fun x => x.1).filter keys.contains) &&
      bareToks.all (flags.map ascii).contains && noTwice bareToks
  then some ⟨ts.take k, named, bareToks⟩ else none

/-- The values of a named field, in the order of the line. -/
def Args.values (a : Args) (key : String) : List Text := (a.named.filter fun x => x.1 == ascii key).map fun x => x.2

/-- A named field that may be left out. -/
def Args.opt {α : Type} (a : Args) (key : String) (rd : Text → Rd α) : Rd (Option α) :=
  match a.values key with
  | [] => .ok none
  | v :: _ => (rd v).map some

/-- A named field that must be there (R169). -/
def Args.need {α : Type} (a : Args) (key : String) (rd : Text → Rd α) : Rd α :=
  match a.values key with
  | [] => .syntaxErr
  | v :: _ => rd v

/-- A named field that may be listed. -/
def Args.many {α : Type} (a : Args) (key : String) (rd : Text → Rd α) : Rd (List α) := Rd.all ((a.values key).map rd)

/-- Whether a flag is given. -/
def Args.flag (a : Args) (w : String) : Bool := a.flags.contains (ascii w)

/-! ## Values (spec 11, section 11.1; R183) -/

/-- The number a run of digits spells. -/
def digitsValue (t : Text) : Nat := t.foldl (fun n b => 10 * n + (b.toNat - 48)) 0

/-- A number: decimal digits. -/
def rdNum (t : Text) : Rd Nat := if !t.isEmpty && t.all isDigit then .ok (digitsValue t) else .syntaxErr

/-- An index 1..n, held from 0. -/
def rdIndex (n : Nat) (t : Text) : Rd (Fin n) :=
  match rdNum t with
  | .ok k => if h : k - 1 < n ∧ 1 ≤ k then .ok ⟨k - 1, h.1⟩ else .range
  | .range => .range
  | .syntaxErr => .syntaxErr

/-- An index 0..n-1. -/
def rdFin (n : Nat) (t : Text) : Rd (Fin n) :=
  match rdNum t with
  | .ok k => if h : k < n then .ok ⟨k, h⟩ else .range
  | .range => .range
  | .syntaxErr => .syntaxErr

/-- A position `bar:beat`. A tick behind the beat is a wrong form, refused SYNTAX: the model's choice (R183, log 16). -/
def rdPos (t : Text) : Rd Pos :=
  match splitAt 58#8 t with
  | [a, b] => ((Rd.ok Pos.mk).ap (rdNum a)).ap (rdNum b)
  | _ => .syntaxErr

/-- A position `bar:beat` or `bar:beat.tick`. -/
def rdTPos (t : Text) : Rd TPos :=
  match splitAt 58#8 t with
  | [a, b] =>
    match splitAt 46#8 b with
    | [x] => (((Rd.ok TPos.mk).ap (rdNum a)).ap (rdNum x)).ap (.ok 0)
    | [x, y] => (((Rd.ok TPos.mk).ap (rdNum a)).ap (rdNum x)).ap (rdNum y)
    | _ => .syntaxErr
  | _ => .syntaxErr

/-- A cue number `n` or `n.d`, in tenths. -/
def rdCue (t : Text) : Rd Nat :=
  match splitAt 46#8 t with
  | [a] => (rdNum a).map fun n => 10 * n
  | [a, [d]] => ((Rd.ok fun n k => 10 * n + k).ap (rdNum a)).ap (rdNum [d])
  | _ => .syntaxErr

/-- A part code or mask: three hex digits. -/
def rdHex (t : Text) : Rd (BitVec 12) :=
  match t.map hexValue with
  | [some a, some b, some c] => .ok (BitVec.ofNat 12 (256 * a + 16 * b + c))
  | _ => .syntaxErr

/-- A name: letters, digits, `-`, `.`. -/
def rdName (t : Text) : Rd Text := if !t.isEmpty && t.all nameChar then .ok t else .syntaxErr

/-- A keyword of a set; a word outside the set is out of range (R173, R176, log 16). -/
def rdWord {α : Type} (table : List (String × α)) (t : Text) : Rd α :=
  if !t.isEmpty && t.all wordChar then Rd.orRange ((table.find? fun x => ascii x.1 == t).map fun x => x.2) else .syntaxErr

/-- A station number, held from 0. -/
def stationOf (k : Nat) : Rd (Fin 16) := if h : k - 1 < 16 ∧ 1 ≤ k then .ok ⟨k - 1, h.1⟩ else .range

/-- A station: `STN` and two digits. -/
def rdStation (t : Text) : Rd (Fin 16) :=
  match t with
  | [83#8, 84#8, 78#8, a, b] => if isDigit a && isDigit b then stationOf (digitsValue [a, b]) else .syntaxErr
  | _ => .syntaxErr

/-- A letter A..D, held from 0. -/
def letterOf (b : Byte) : Rd (Fin 4) :=
  if within 65 90 b.toNat then (if h : b.toNat - 65 < 4 then .ok ⟨b.toNat - 65, h⟩ else .range) else .syntaxErr

/-- A slot: a station number and a letter. -/
def rdSlot (t : Text) : Rd SlotId :=
  match t.getLast? with
  | some l => ((Rd.ok fun n k => SlotId.mk n k).ap (rdIndex 16 t.dropLast)).ap (letterOf l)
  | none => .syntaxErr

/-- A holder: a word that begins as a station does must be spelled as one (R183). -/
def rdHolder (t : Text) : Rd Holder :=
  if t.take 3 = ascii "STN" then (rdStation t).map .station
  else rdWord [("LINE_A", Holder.lineA), ("LINE_B", .lineB), ("PORT", .port)] t

/-- The inside of a text up to its closing quote, which must end it, with its escapes resolved (R183). -/
def rdInside : Text → Rd Text
  | [] => .syntaxErr
  | [34#8] => .ok []
  | 92#8 :: a :: b :: bs =>
    match hexValue a, hexValue b with
    | some x, some y => (rdInside bs).map fun t => BitVec.ofNat 8 (16 * x + y) :: t
    | _, _ => .syntaxErr
  | b :: bs => if b = 34#8 ∨ b = 92#8 then .syntaxErr else (rdInside bs).map fun t => b :: t

/-- A text between double quotes. -/
def rdText (t : Text) : Rd Text :=
  match t with
  | 34#8 :: bs => rdInside bs
  | _ => .syntaxErr

/-- A beat source. -/
def rdSrc : Text → Rd Src := rdWord (Src.all.map fun x => (x.word, x))

/-- ON or OFF. -/
def rdOnOff : Text → Rd Bool := rdWord [("ON", true), ("OFF", false)]

/-- MUTE or OPEN. -/
def rdMute : Text → Rd Mute := rdWord [("MUTE", .muted), ("OPEN", .opened)]

/-- A page. -/
def rdPage : Text → Rd PageSel := rdWord [("RUN", .run), ("STOP", .stop)]

/-- A patch number; NONE is out of range (R80). -/
def rdPatch (t : Text) : Rd Nat := if t = ascii "NONE" then .range else rdNum t

/-- A PATCH action `code/patch`. -/
def rdPatchAction (t : Text) : Rd Action :=
  match splitAt 47#8 t with
  | [a, b] => ((Rd.ok fun c p => Action.patch ⟨c, p⟩).ap (rdHex a)).ap (rdPatch b)
  | _ => .syntaxErr

/-- A NOTE action: an index or CLEAR. -/
def rdNoteAction (t : Text) : Rd Action :=
  if t = ascii "CLEAR" then .ok (.note none) else (rdFin 64 t).map fun n => .note (some n)

/-- A LANE action `lane/mute` or `lane/mute/subdivision`. -/
def rdLaneAction (t : Text) : Rd Action :=
  match splitAt 47#8 t with
  | [a, b] => ((Rd.ok fun l m => Action.lane l m none).ap (rdIndex 8 a)).ap (rdMute b)
  | [a, b, c] => (((Rd.ok fun l m s => Action.lane l m (some s)).ap (rdIndex 8 a)).ap (rdMute b)).ap (rdNum c)
  | _ => .syntaxErr

/-- A cue's actions, in the order of the line (R79). -/
def Args.actions (a : Args) : Rd (List Action) :=
  Rd.all (a.named.filterMap fun x =>
    if x.1 = ascii "PATCH" then some (rdPatchAction x.2)
    else if x.1 = ascii "NOTE" then some (rdNoteAction x.2)
    else if x.1 = ascii "LANE" then some (rdLaneAction x.2)
    else none)

/-- A list of notice classes (R173). -/
def rdClasses (t : Text) : Rd (List NoticeClass) :=
  Rd.all ((splitAt 47#8 t).map (rdWord (NoticeClass.all.map fun c => (c.word, c))))

/-- A value that may be NONE. -/
def rdOrNone {α : Type} (none_ : α) (rd : Text → Rd α) (t : Text) : Rd α := if t = ascii "NONE" then .ok none_ else rd t

/-- The only operand of a line. -/
def Args.single {α : Type} (a : Args) (rd : Text → Rd α) : Rd α :=
  match a.ops with
  | [t] => rd t
  | _ => .syntaxErr

/-! ## Requests (R169 and the rule of each) -/

/-- How the fields of one request are read, given its tag, the time of its line's LF and its tokens. -/
abbrev Reader := Nat → Time → List Text → Rd Instr

/-- A request with the fields of a shape. -/
def reader (n : Nat) (keys lists flags : List String) (f : Nat → Args → Rd Instr) : Reader := fun tag _ ts =>
  match shape n keys lists flags ts with
  | some a => f tag a
  | none => .syntaxErr

/-- A request with no fields. -/
def plain (f : Nat → Instr) : Reader := reader 0 [] [] [] fun tag _ => .ok (f tag)

/-- A request with one operand and nothing else. -/
def single {α : Type} (rd : Text → Rd α) (f : Nat → α → Instr) : Reader :=
  reader 1 [] [] [] fun tag a => (a.single rd).map (f tag)

/-- The sections of STATUS but OUT (R176). -/
def sections : List (String × Section) :=
  [("SHOW", .showCtl), ("ENGINE", .engine), ("FOCUS", .focus), ("CUES", .cues), ("SLOTS", .slots), ("LINK", .link),
    ("VIDEO", .video), ("PORT", .port)]

/-- The fields of STATUS (R176). -/
def readStatusLine (tag : Nat) (a : Args) : Rd Instr :=
  match a.ops with
  | [] => .ok (.status tag .top)
  | [t] => if t = ascii "OUT" then .syntaxErr else (rdWord sections t).map (.status tag)
  | [t, n] => if t = ascii "OUT" then (rdIndex 6 n).map fun k => .status tag (.out k) else .syntaxErr
  | _ => .syntaxErr

/-- The fields of FORM.PUT (R1, R6). Several holds repeat HOLD=, one position each, and positions joined by `/` in one
HOLD= are refused SYNTAX: the model's choice (log 32). -/
def readFormPut (tag : Nat) (a : Args) : Rd Instr :=
  ((((((((((((Rd.ok FormFields.mk).ap (a.need "BAR" rdNum)).ap (a.need "BARS" rdNum)).ap (a.need "METER" rdNum)).ap
    (a.opt "PERIOD" rdNum)).ap (a.opt "POLICY" (rdWord [("NOMINAL", .nominal), ("KEEP", .keep)]))).ap
    (a.opt "BAND" rdNum)).ap (a.opt "MODE" (rdWord [("LEAD", .lead), ("FOLLOW", .follow)]))).ap
    (a.opt "VAMP" rdNum)).ap (a.many "HOLD" rdPos)).ap (.ok (a.flag "END")))).map (.formPut tag)

/-- The fields of FORM.GET (R8). -/
def readFormGet (tag : Nat) (a : Args) : Rd Instr :=
  match a.ops with
  | [] => .ok (.formGet tag .summary)
  | [t] => (rdNum t).map fun b => .formGet tag (.bar b)
  | [t, u] => if t = ascii "AFTER" then (rdNum u).map fun b => .formGet tag (.after b) else .syntaxErr
  | _ => .syntaxErr

/-- The fields of MARK.PUT (R11, R12). -/
def readMarkPut (tag : Nat) (a : Args) : Rd Instr :=
  (((((Rd.ok MarkFields.mk).ap (a.need "NAME" rdName)).ap (a.need "AT" rdPos)).ap (a.opt "COUNTIN" rdNum)).ap
    (a.opt "TEMPO" rdNum)).map (.markPut tag)

/-- The fields of MARK.GET (R13). A lone FIRST is always the first-mark form and a lone AFTER the mark of that name: the
model's choice, since a mark may be named either (log 32). -/
def readMarkGet (tag : Nat) (a : Args) : Rd Instr :=
  match a.ops with
  | [t] => if t = ascii "FIRST" then .ok (.markGet tag .first) else (rdName t).map fun n => .markGet tag (.named n)
  | [t, u] => if t = ascii "AFTER" then (rdName u).map fun n => .markGet tag (.after n) else .syntaxErr
  | _ => .syntaxErr

/-- The fields of CUE.PUT (R79, R80, R82). -/
def readCuePut (tag : Nat) (a : Args) : Rd Instr :=
  (((((Rd.ok CueFields.mk).ap (a.single rdCue)).ap (a.need "AT" rdTPos)).ap (a.opt "LEAD" rdNum)).ap a.actions).map
    (.cuePut tag)

/-- The fields of CUE.GET (R83). -/
def readCueGet (tag : Nat) (a : Args) : Rd Instr :=
  match a.ops with
  | [] => .ok (.cueGet tag .summary)
  | [t] => if t = ascii "FIRST" then .ok (.cueGet tag .first) else (rdCue t).map fun n => .cueGet tag (.num n)
  | [t, u] => if t = ascii "AFTER" then (rdCue u).map fun n => .cueGet tag (.after n) else .syntaxErr
  | _ => .syntaxErr

/-- The fields of NOTE.PUT (R81). -/
def readNotePut (tag : Nat) (a : Args) : Rd Instr :=
  ((Rd.ok fun i t => Instr.notePut tag i t).ap (a.single (rdFin 64))).ap (a.need "TEXT" rdText)

/-- The filter part of a SLOT.FILTER line from its two fields (R100). -/
def filterField : Option (Option (BitVec 12)) → Option (BitVec 12) → FilterField
  | none, none => .left
  | none, some m => .maskAlone m
  | some none, none => .none
  | some none, some m => .maskAlone m
  | some (some c), m => .code c m

/-- The home part of a SLOT.FILTER line (R100). -/
def homeField : Option (Option Nat) → HomeField
  | none => .left
  | some none => .none
  | some (some p) => .patch p

/-- The fields of SLOT.FILTER, in its two forms; the key `MASK` is the model's (R100, log 32). -/
def readSlotFilter (tag : Nat) (a : Args) : Rd Instr :=
  match a.ops with
  | [] =>
    if a.named.all fun x => x.1 == ascii "TIMEOUT" then
      (a.need "TIMEOUT" rdNum).map fun n => .slotFilter tag (.timeout n)
    else .syntaxErr
  | [t] =>
    if a.named.any fun x => x.1 == ascii "TIMEOUT" then .syntaxErr
    else
      ((((Rd.ok fun i f m h => Instr.slotFilter tag (.slot i (filterField f m) (homeField h))).ap (rdSlot t)).ap
        (a.opt "FILTER" (rdOrNone none fun v => (rdHex v).map some))).ap (a.opt "MASK" rdHex)).ap
        (a.opt "HOME" (rdOrNone none fun v => (rdNum v).map some))
  | _ => .syntaxErr

/-- The fields of SRC.SET (R45, R46). -/
def readSrcSet (tag : Nat) (a : Args) : Rd Instr :=
  ((Rd.ok fun x f => Instr.srcSet tag x f).ap (a.single rdSrc)).ap
    ((((((Rd.ok SrcFields.mk).ap (a.opt "RANK" rdNum)).ap
      (a.opt "EDGE" (rdWord [("RISE", .rise), ("FALL", .fall), ("BOTH", .both), ("OFF", .off)]))).ap
      (a.opt "DEBOUNCE" rdNum)).ap
      (a.opt "CAMERA" (rdWord [("CAM1", .cam .cam1), ("CAM2", .cam .cam2), ("NONE", .none)]))).ap (a.opt "NAME" rdName))

/-- The fields of ENGINE.SET (R18). -/
def readEngineSet (tag : Nat) (a : Args) : Rd Instr :=
  ((((((Rd.ok EngineFields.mk).ap (a.opt "W" rdNum)).ap (a.opt "KT" rdNum)).ap (a.opt "KP" rdNum)).ap
    (a.opt "S" rdNum)).ap (a.opt "C" rdNum)).map (.engineSet tag)

/-- The fields of ROOM.SET (R62, R66). -/
def readRoomSet (tag : Nat) (a : Args) : Rd Instr :=
  ((Rd.ok fun r f => Instr.roomSet tag r f).ap (a.single (rdIndex 4))).ap
    (((((Rd.ok RoomFields.mk).ap (a.opt "CR" rdNum)).ap (a.opt "VR" rdNum)).ap
      (a.opt "OUT" (rdOrNone .none fun v => (rdIndex 6 v).map .out))).ap (a.opt "NAME" rdName))

/-- The fields of LANE.SET (R68, R69). -/
def readLaneSet (tag : Nat) (a : Args) : Rd Instr :=
  ((Rd.ok fun l f => Instr.laneSet tag l f).ap (a.single (rdIndex 8))).ap
    ((((((Rd.ok LaneFields.mk).ap (a.opt "ROOM" (rdIndex 4))).ap (a.opt "SUB" rdNum)).ap (a.opt "ACCENT" rdOnOff)).ap
      (a.opt "LEVEL" rdNum)).ap (a.opt "MUTE" rdMute))

/-- The fields of VIDEO.SET (R143). -/
def readVideoSet (tag : Nat) (a : Args) : Rd Instr :=
  (((Rd.ok VideoFields.mk).ap (a.opt "STD" (rdWord [("50", .hz50), ("59.94", .hz5994)]))).ap
    (a.opt "FLASH" rdNum)).map (.videoSet tag)

/-- The fields of OUT.SET (R140). -/
def readOutSet (tag : Nat) (a : Args) : Rd Instr :=
  ((Rd.ok fun o f => Instr.outSet tag o f).ap (a.single (rdIndex 6))).ap
    ((((Rd.ok OutFields.mk).ap (a.opt "SOURCE" (rdWord [("CAM1", .cam1), ("CAM2", .cam2), ("FOCUS", .focus)]))).ap
      (a.opt "DELAY" rdNum)).ap (a.opt "OVERLAY" rdOnOff))

/-- The fields of OVL.TEXT (R144). -/
def readOvlText (tag : Nat) (a : Args) : Rd Instr :=
  ((((Rd.ok fun p r c t => Instr.ovlText tag p r c t).ap (a.single rdPage)).ap (a.need "ROW" rdNum)).ap
    (a.need "COL" rdNum)).ap (a.need "TEXT" rdText)

/-- ON or OFF, one of the two flags; neither or both is refused SYNTAX. R144 gives no words for setting and clearing:
these are the model's choice (log 32). -/
def Args.onOrOff (a : Args) : Rd Bool :=
  match a.flag "ON", a.flag "OFF" with
  | true, false => .ok true
  | false, true => .ok false
  | _, _ => .syntaxErr

/-- The fields of OVL.FLASH (R144); the words that set and clear are the model's choice (log 32). -/
def readOvlFlash (tag : Nat) (a : Args) : Rd Instr :=
  (((((Rd.ok fun p r c n b => Instr.ovlFlash tag p r c n b).ap (a.single rdPage)).ap (a.need "ROW" rdNum)).ap
    (a.need "COL" rdNum)).ap (a.need "COUNT" rdNum)).ap a.onOrOff

/-- The nine auto-fields by name (R145). -/
def fieldNames : List (String × Field) :=
  [("BAR", .bar), ("BEAT", .beat), ("TEMPO", .tempo), ("VAMP", .vamp), ("NEXTCUE", .nextCue), ("FOCUS", .focus),
    ("NOTE", .note), ("HOLDER", .holder), ("MARK", .mark)]

/-- The fields of OVL.FIELD: a place, or NONE (R145). -/
def readOvlField (tag : Nat) (a : Args) : Rd Instr :=
  ((Rd.ok fun f p => Instr.ovlField tag f p).ap (a.single (rdWord fieldNames))).ap
    (if a.flag "NONE" then (if a.named.isEmpty then .ok none else .syntaxErr)
    else (((Rd.ok Place.mk).ap (a.need "ROW" rdNum)).ap (a.need "COL" rdNum)).map some)

/-- The fields of STOP (R161). -/
def readStop (tag : Nat) (a : Args) : Rd Instr :=
  match a.ops with
  | [] => .ok (.stop tag none)
  | [t] => (rdNum t).map fun n => .stop tag (some n)
  | _ => .syntaxErr

/-- The fields of NOTICE.MASK (R173). The model chooses how a line tells the classes: MASK=a/b names those to mask,
UNMASK=a/b those to unmask, and ALL, NONE or DEFAULT stands alone as a bare operand (log 32); a line with no field is
taken, as one that names no class (log 28). -/
def readNoticeMask (tag : Nat) (a : Args) : Rd Instr :=
  match a.ops with
  | [] =>
    (((Rd.ok fun m u => MaskFields.classes (m.getD []) (u.getD [])).ap (a.opt "MASK" rdClasses)).ap
      (a.opt "UNMASK" rdClasses)).map (.noticeMask tag)
  | [t] =>
    if a.named.isEmpty then
      (rdWord [("ALL", MaskFields.all), ("NONE", .none), ("DEFAULT", .default)] t).map (.noticeMask tag)
    else .syntaxErr
  | _ => .syntaxErr

/-- The fields of SLOT.RETRY: a slot or ALL (R109). -/
def rdRetry (t : Text) : Rd (Option SlotId) := if t = ascii "ALL" then .ok none else (rdSlot t).map some

/-- The requests by mnemonic, each with its reader (R169). The model chooses what no rule or example shows: FORM.DEL
and MARK.DEL take their bar or name as a bare operand (R7), and STATION.SET gives its permission in the named field
`VAMPOUT=ALLOW|DENY`, which must be there (R135, log 32). -/
def requests : List (String × Reader) :=
  [("STATUS", reader 2 [] [] [] readStatusLine),
    ("FORM.PUT", reader 0 ["BAR", "BARS", "METER", "PERIOD", "POLICY", "BAND", "MODE", "VAMP"] ["HOLD"] ["END"] readFormPut),
    ("FORM.DEL", single rdNum .formDel),
    ("FORM.GET", reader 2 [] [] [] readFormGet),
    ("MARK.PUT", reader 0 ["NAME", "AT", "COUNTIN", "TEMPO"] [] [] readMarkPut),
    ("MARK.DEL", single rdName .markDel),
    ("MARK.GET", reader 2 [] [] [] readMarkGet),
    ("CUE.PUT", reader 1 ["AT", "LEAD"] ["PATCH", "NOTE", "LANE"] [] readCuePut),
    ("CUE.DEL", single rdCue .cueDel),
    ("CUE.GET", reader 2 [] [] [] readCueGet),
    ("CUE.FIRE", single rdCue .cueFire),
    ("NOTE.PUT", reader 1 ["TEXT"] [] [] readNotePut),
    ("SLOT.FILTER", reader 1 ["FILTER", "MASK", "HOME", "TIMEOUT"] [] [] readSlotFilter),
    ("SLOT.GET", single rdSlot .slotGet),
    ("SLOT.RETRY", single rdRetry .slotRetry)] ++
  [("STATION.SET", reader 1 ["VAMPOUT"] [] [] fun tag a =>
      ((Rd.ok fun n p => Instr.stationSet tag n p).ap (a.single rdStation)).ap
        (a.need "VAMPOUT" (rdWord [("ALLOW", .allowed), ("DENY", .denied)]))),
    ("STATION.GET", single rdStation .stationGet),
    ("SRC.SET", reader 1 ["RANK", "EDGE", "DEBOUNCE", "CAMERA", "NAME"] [] [] readSrcSet),
    ("SRC.GET", single rdSrc .srcGet),
    ("ENGINE.SET", reader 0 ["W", "KT", "KP", "S", "C"] [] [] readEngineSet),
    ("FOCUS.PIN", single rdSrc .focusPin),
    ("FOCUS.FREE", reader 0 [] [] ["CLEAR"] fun tag a => .ok (.focusFree tag (a.flag "CLEAR"))),
    ("TAP", fun tag t ts => plain (fun tag => .tap tag t) tag t ts),
    ("ROOM.SET", reader 1 ["CR", "VR", "OUT", "NAME"] [] [] readRoomSet),
    ("LANE.SET", reader 1 ["ROOM", "SUB", "ACCENT", "LEVEL", "MUTE"] [] [] readLaneSet),
    ("VIDEO.SET", reader 0 ["STD", "FLASH"] [] [] readVideoSet),
    ("OUT.SET", reader 1 ["SOURCE", "DELAY", "OVERLAY"] [] [] readOutSet),
    ("OVL.TEXT", reader 1 ["ROW", "COL", "TEXT"] [] [] readOvlText),
    ("OVL.FLASH", reader 1 ["ROW", "COL", "COUNT"] [] ["ON", "OFF"] readOvlFlash),
    ("OVL.FIELD", reader 1 ["ROW", "COL"] [] ["NONE"] readOvlField)] ++
  [("ARM", single rdName .arm),
    ("GO", reader 0 [] [] ["FORCE"] fun tag a => .ok (.go tag (a.flag "FORCE"))),
    ("STOP", reader 1 [] [] [] readStop),
    ("STOP.CLEAR", single rdHolder .stopClear),
    ("VAMP.OUT", plain .vampOut),
    ("NOTICE.MASK", reader 1 ["MASK", "UNMASK"] [] [] readNoticeMask),
    ("SHOW.SAVE", plain .showSave),
    ("SHOW.LOAD", plain .showLoad),
    ("SHOW.ERASE", plain .showErase),
    ("RESET", plain .reset)]

/-! ## The line (R168, R169) -/

/-- The tag a line begins with, `#`, a decimal 1..255 and a space, and the rest of the line (R168). -/
def readTag (t : Text) : Option (Nat × Text) :=
  match t with
  | 35#8 :: bs =>
    let ds := bs.takeWhile isDigit
    match bs.dropWhile isDigit with
    | 32#8 :: rest => if !ds.isEmpty && within 1 255 (digitsValue ds) then some (digitsValue ds, rest) else none
    | _ => none
  | _ => none

/-- The tokens behind a mnemonic: none when they cannot be told apart or a space stands where none may (R183). -/
def fieldTokens (t : Text) : Option (List Text) :=
  match t with
  | [] => some []
  | _ :: fs =>
    match tokenise false [] fs with
    | some ts => if ts.any List.isEmpty then none else some ts
    | none => none

/-- A line after its tag, read: UNKNOWN, then SYNTAX, then RANGE, else the request (R169). -/
def readRequest (tag : Nat) (lf : Time) (rest : Text) : Except Code Instr :=
  let mn := (rest.takeWhile (· != 32#8)).map upper
  match requests.find? fun x => ascii x.1 == mn with
  | none => .error .unknown
  | some (_, rd) =>
    if rest.all lineChar then
      match fieldTokens (rest.dropWhile (· != 32#8)) with
      | none => .error .syntaxErr
      | some ts =>
        match rd tag lf ts with
        | .syntaxErr => .error .syntaxErr
        | .range => .error .range
        | .ok i => if i.rangeOk then .ok i else .error .range
    else .error .syntaxErr

end Sys2Proof.Machine
end

