-- ==== Sys2Proof/Machine/Status.lean ====
section
/-! DEFINITION. STATUS: the fields of each section, as they stand when the request is taken (spec 10, R176, with R44,
R61, R96, R116, R136, R150, R152). -/

namespace Sys2Proof.Machine

/-- The missed classes, in the order of R172. -/
def Port.missedInOrder (p : Port) : List NoticeClass := NoticeClass.all.filter p.missed.contains

/-- The holder set in a reply. -/
def holdersField (hs : List Holder) : Fld := ⟨"HOLDERS", hs.map .holder⟩

/-- The show fields of R152. -/
def Dev.showFields (d : Dev) : List Fld :=
  [fw "STATE" d.ctl.state.word, holdersField d.ctl.holders, fn "EP" d.ctl.episode, fo "MARK" .name d.ctl.markName,
    fn "CHASE" d.ctl.count]

/-- The numbers of notices in the two queues. -/
def Dev.queueFields (d : Dev) : List Fld := [fn "HIGH" d.port.high.length, fn "LOW" d.port.low.length]

/-- STATUS with no section (R176). -/
def Dev.topFields (d : Dev) : List Fld :=
  d.showFields ++
    [fw "ENGINE" d.eng.st.word, fo "POS" .pos d.eng.pos, fn "TEMPO" (tempoShown d.eng.period),
      fo "FOCUS" (fun x : Src => .word x.word) d.arb.holder,
      fo "STATUS" (fun h : HolderStatus => .word h.word) d.arb.status,
      fw "STORE" (if d.store.writing then "WRITING" else "IDLE"), fw "IMAGE" d.store.cond.word] ++ d.queueFields

/-- STATUS ENGINE (R44). -/
def Dev.engineFields (d : Dev) : List Fld :=
  let g := d.eng
  [fw "ENGINE" g.st.word, fo "POS" .pos g.pos, fn "P" g.period, fn "TEMPO" (tempoShown g.period), fo "N" .num g.due,
    fo "ENTRY" .num g.current, fn "PASS" g.pass, fw "RELEASE" g.rel.word, fn "COUNT" g.counter]

/-- STATUS FOCUS (R61). -/
def Dev.focusFields (d : Dev) : List Fld :=
  [fo "FOCUS" (fun x : Src => .word x.word) d.arb.holder,
    fo "STATUS" (fun h : HolderStatus => .word h.word) d.arb.status, fn "MISSES" d.arb.misses,
    fw "PIN" (if d.arb.pin then "SET" else "CLEAR")]

/-- STATUS CUES (R96). -/
def Dev.cueFields (d : Dev) : List Fld :=
  [fn "CUES" d.data.cues.length, fn "ACTIONS" (poolSize d.data.cues), fo "NEXT" (fun c : Cue => .cue c.num) d.nextCue,
    fn "PENDING" d.pendingStages, fo "M" (fun x : RunCtx => .pos x.mark) d.sched.ctx,
    fo "CURSOR" (fun c : Cursor => .pos c.pos) (d.sched.ctx.bind fun x => x.cursor)]

/-- How many slots are in a request state (R116). -/
def Dev.slotsIn (d : Dev) (q : Req) : Nat := d.slots.toList.countP fun r => r.req == q

/-- STATUS SLOTS (R116). -/
def Dev.slotFields (d : Dev) : List Fld :=
  [fn "CHASE" (chaseCount d.slots), fn "QUEUE" d.link.queue.length, fn "QUEUED" (d.slotsIn .queued),
    fn "SENT" (d.slotsIn .sent), fn "WITHHELD" (d.slotsIn .withheld), fn "FAULT" (d.slotsIn .fault)]

/-- How many stations are in a health state (R136). -/
def Dev.stationsIn (d : Dev) (h : Health) : Nat := d.link.stations.toList.countP fun r => r.state == h

/-- The kind of a frame. -/
def FrameKind.word : FrameKind → String
  | .beacon => "BEACON"
  | .patch .. => "PATCH"
  | .poll => "POLL"
  | .stop _ => "STOP"
  | .clear _ => "CLEAR"

/-- STATUS LINK (R136). -/
def Dev.linkFields (d : Dev) : List Fld :=
  let l := d.link
  [fn "EPOCH" l.epoch, fn "ROTATION" (l.rotation.val + 1), fo "FRAME" (fun f : Frame => .word f.kind.word) l.line,
    fn "QUEUE" l.queue.length,
    ⟨"STOP", match l.stopPending with | some p => [.num p.episode, .num p.sends] | none => []⟩,
    ⟨"CLEARS", l.clears.map fun c => .station c.station⟩, fn "ABSENT" (d.stationsIn .absent),
    fn "ACTIVE" (d.stationsIn .active), fn "WARN" (d.stationsIn .warn), fn "OFF" (d.stationsIn .off)]

/-- LOCKED or LOST (R138). -/
def CamRun.word (c : CamRun) : String := if c.locked then "LOCKED" else "LOST"

/-- STATUS VIDEO (R150). -/
def Dev.videoStatus (d : Dev) : List Fld :=
  let v := d.video
  [fw "STD" d.data.std.word, fn "F" d.data.std.frame, fn "FLASH" d.data.flashLen,
    fo "NOTE" (fun n : Fin 64 => .num n.val) v.note, fw "CAM1" v.cam1.word, fn "MISSING1" v.cam1.missing,
    fw "CAM2" v.cam2.word, fn "MISSING2" v.cam2.missing]

/-- What a picture is: a camera frame, a held frame or black (R150). -/
def Picture.word : Picture → String
  | .live _ => "FRAME"
  | .held _ => "HELD"
  | .black => "BLACK"

/-- The page drawn (R149). -/
def pageWord : Option PageSel → String
  | some .run => "RUN"
  | some .stop => "STOP"
  | none => "NONE"

/-- STATUS OUT (R150). -/
def Dev.outFields (d : Dev) (o : Fin 6) : List Fld :=
  let s := d.data.outs[o]
  let r := d.video.outs[o]
  [fn "OUT" (o.val + 1), fw "SOURCE" s.source.word, fw "CAMERA" r.cam.word, fn "DELAY" (d.delay o),
    fo "ROOM" (fun r : Fin 4 => .num (r.val + 1)) (roomOf d.data.rooms o), fw "OVERLAY" (onOff s.overlay),
    fw "PAGE" (pageWord r.shown.page), fw "SLOT" r.shown.pic.word]

/-- STATUS PORT (R176). -/
def Dev.portFields (d : Dev) : List Fld :=
  [⟨"MASKED", d.port.mask.map .cls⟩] ++ d.queueFields ++ [fn "DISCARDED" d.port.discarded]

/-- A stop line's level, as taken, with the time of the last change seen on the line (R151, R160, log 38). -/
def levelField (k : String) (r : LineRun) : Fld := ⟨k, [.word r.taken.word, .num r.changed]⟩

/-- The fields of a section (R176). STATUS SHOW has the fields of R152 and the line levels of R151. -/
def Dev.section_ (d : Dev) : Section → List Fld
  | .top => d.topFields
  | .showCtl => d.showFields ++ [levelField "LINE_A" d.ctl.lineA, levelField "LINE_B" d.ctl.lineB]
  | .engine => d.engineFields
  | .focus => d.focusFields
  | .cues => d.cueFields
  | .slots => d.slotFields
  | .link => d.linkFields
  | .video => d.videoStatus
  | .out o => d.outFields o
  | .port => d.portFields

/-- STATUS: the missed classes first, then the section; the missed flags are cleared (R176). -/
def Dev.status (q : Section) (d : Dev) : Dev × Answer :=
  (d.setPort { d.port with missed := [] },
    .ok (⟨"MISSED", d.port.missedInOrder.map .cls⟩ :: d.section_ q))

end Sys2Proof.Machine
end

