-- ==== Sys2Proof/Machine/PortCmd.lean ====
section
/-! DEFINITION. The Control Port's commands: bytes and lines coming in, the end of a line going out, STATUS, the mask
and the beat notices (spec 10, sections 10.1 to 10.3). -/

namespace Sys2Proof.Machine

/-! ## The line receiver (R168) -/

/-- The bytes a complete line holds in the buffer, its LF counted (R168, log 27). -/
def RxLine.size (l : RxLine) : Nat := l.bytes.length + 1

/-- The bytes in the line buffer (R168). -/
def Port.used (p : Port) : Nat := (p.lines.map RxLine.size).sum + p.arriving.length

/-- A line without a CR at its end (R168). -/
def stripCR (t : Text) : Text := if t.getLast? = some 13#8 then t.dropLast else t

/-- A byte is dropped from the line arriving (R168). A CR dropped immediately before an LF that is stored is counted
like any other: it damages the line, and it adds 1 to the length the line is judged by (the model's choice, log 27). -/
def Port.drop (p : Port) : Port :=
  { p with lost := p.lost + 1, lostAt := if p.lost = 0 then p.arriving.length else p.lostAt, lastLost := true }

/-- The characters kept of the line arriving when its LF is stored: without a CR that came immediately before the LF,
no byte dropped between them (R168, log 27). -/
def Port.lineKept (p : Port) : Text := if p.lastLost then p.arriving else stripCR p.arriving

/-- A byte arrives: it is dropped when the buffer is full, it ends a line when it is LF, else it joins the line still
arriving (R168). -/
def Port.receive (p : Port) (now : Time) (b : Byte) : Port :=
  if Config.bufferBytes ≤ p.used then p.drop
  else if b = 10#8 then
    { p with
      lines := p.lines ++ [⟨p.lineKept, p.lost, p.lostAt, now⟩]
      arriving := []
      lost := 0
      lostAt := 0
      lastLost := false }
  else { p with arriving := p.arriving ++ [b], lastLost := false }

/-- What becomes of a complete line (R168, R169). -/
inductive Judged | discard | refuse (tag : Nat) (c : Code) | request (i : Instr)

/-- The bytes of a line in which its tag stands: all of it, or what came before the first dropped byte (R168,
log 27). -/
def RxLine.front (l : RxLine) : Text := if l.dropped = 0 then l.bytes else l.bytes.take l.whole

/-- A line judged and, when it passes, read (R168, R169). -/
def RxLine.judge (l : RxLine) : Judged :=
  if Config.lineLimit < l.bytes.length + l.dropped then .discard
  else
    match readTag l.front with
    | none => .discard
    | some (tag, rest) =>
      if l.dropped ≠ 0 then .refuse tag .syntaxErr
      else
        match readRequest tag l.time rest with
        | .error c => .refuse tag c
        | .ok i => .request i

/-- Whether the port takes a line: the reply slot is empty, and no request is in hand (R169, R170). -/
def Port.takes (p : Port) : Bool := p.reply.isNone && p.inHand.isNone && !p.lines.isEmpty

/-- A judged line's outcome (R168, R169). -/
def Port.judged (p : Port) : Judged → Port
  | .discard => { p with discarded := satSucc Config.counterTop p.discarded }
  | .refuse tag c => { p with reply := some ⟨tag, .no c⟩ }
  | .request i => { p with inHand := some i }

/-- The oldest complete line is taken (R169). -/
def Port.takeLine (p : Port) : Port :=
  if p.takes then
    match p.lines with
    | l :: rest => ({ p with lines := rest }).judged l.judge
    | [] => p
  else p

/-! ## The outgoing line (R170, R171) -/

/-- The reply slot after a line's end: empty when the line was the reply it holds (R170). -/
def replyAfter (reply : Option Reply) : Option OutLine → Option Reply
  | some (.reply r) => if reply = some r then none else reply
  | _ => reply

/-- The line being sent ends (R170, R171). -/
def Port.lineEnd (p : Port) : Port := { p with sending := none, reply := replyAfter p.reply p.sending }

/-! ## The mask (R173) -/

/-- The mask a NOTICE.MASK leaves, in the order of R172 (R173, log 28). -/
def newMask (old : List NoticeClass) : MaskFields → List NoticeClass
  | .all => NoticeClass.all
  | .none => []
  | .default => Port.defaultMask
  | .classes m u => NoticeClass.all.filter fun c => (old.contains c || m.contains c) && !u.contains c

/-- NOTICE.MASK (R173). -/
def Dev.noticeMask (f : MaskFields) (d : Dev) : Dev × Answer :=
  let mask := newMask d.port.mask f
  (d.setPort { d.port with mask := mask },
    .ok [⟨"", (NoticeClass.all.filter fun c => !mask.contains c).map .cls⟩])

/-! ## Beat notices (R174) -/

/-- A beat mark reaches the Control Port: a BEAT notice, then a BAR notice for a downbeat (R174). -/
def Dev.beatNotices (d : Dev) (m : BeatMark) : Dev :=
  let d := d.raise (.beat m)
  if m.kind = .downbeat then d.raise (.bar m) else d

/-! ## The commands -/

/-- LINE_BYTE_RECEIVED (R168). -/
def execLineByteReceived (b : Byte) (s : State) : Host.Outcome State Fault Refusal :=
  s.run fun d => d.setPort (d.port.receive d.clock b)

/-- REQUEST_LINE_TAKEN (R168, R169). -/
def execRequestLineTaken (s : State) : Host.Outcome State Fault Refusal :=
  s.run fun d => d.setPort d.port.takeLine

/-- OUTPUT_LINE_END (R170, R171). -/
def execOutputLineEnd (s : State) : Host.Outcome State Fault Refusal := s.run fun d => d.setPort d.port.lineEnd

/-- STATUS (R176). -/
def execStatus (tag : Nat) (q : Section) (s : State) : Host.Outcome State Fault Refusal :=
  s.request (.status tag q) tag (Dev.status q)

/-- NOTICE_MASK (R173). -/
def execNoticeMask (tag : Nat) (f : MaskFields) (s : State) : Host.Outcome State Fault Refusal :=
  s.request (.noticeMask tag f) tag (Dev.noticeMask f)

/-- BEAT_MARK_PORT (R174). -/
def execBeatMarkPort (m : BeatMark) (s : State) : Host.Outcome State Fault Refusal :=
  s.run fun d => (d.take (.beatMarkPort m)).beatNotices m

end Sys2Proof.Machine
end

