-- ==== Sys2Proof/Machine/Rooms.lean ====
section
/-! DEFINITION. The commands of the Room Table and of the Click Generator (spec 04). -/

namespace Sys2Proof.Machine

/-! ## Rooms (R62, R66, R67) -/

/-- The settings a ROOM.SET line leaves a room with (R66). -/
def roomOfFields (old : RoomSet) (f : RoomFields) : RoomSet where
  cr := f.cr.getD old.cr
  vr := f.vr.getD old.vr
  out := match f.out with | some (.out o) => some o | some .none => none | none => old.out
  name := f.name.getD old.name

/-- Whether a ROOM.SET line gives any field (R66). -/
def RoomFields.any (f : RoomFields) : Bool := f.cr.isSome || f.vr.isSome || f.out.isSome || f.name.isSome

/-- Whether the output a line binds is bound to another room (R62, R66). -/
def boundElsewhere (rooms : Vector RoomSet 4) (r : Fin 4) (b : Option BindField) : Bool :=
  match b with
  | some (.out o) => allRooms.any fun q => q != r && rooms[q].out == some o
  | some .none | none => false

/-- The outputs' settings after a room leaves an output: that output keeps the delay it last held (R67). -/
def releaseOut (outs : Vector OutSet 6) (old new : RoomSet) (dv : Option Nat) : Vector OutSet 6 :=
  match old.out with
  | some o =>
    if new.out = some o then outs else outs.set o { outs[o] with portDelay := dv.getD outs[o].portDelay }
  | none => outs

/-- Whether a change of settings runs the alignment (R63). -/
def runsAlignment (old new : RoomSet) : Bool := old.cr != new.cr || old.vr != new.vr || old.out != new.out

/-- Every field of a room in a reply (R62, R66). -/
def Dev.roomReply (d : Dev) (r : Fin 4) : Answer :=
  let s := d.data.rooms[r]
  let x := d.rooms[r]
  .ok
    [bare (.num (r.val + 1)), fld "NAME" (.name s.name), fn "CR" s.cr, fn "VR" s.vr,
      fo "OUT" (fun o : Fin 6 => .num (o.val + 1)) s.out, fo "DV" .num x.dv, fn "OC" x.oc, fn "SHORT" x.short]

/-- A room's settings written, with the release of its old output and its alignment (R63, R66, R67). -/
def Dev.writeRoom (d : Dev) (r : Fin 4) (new : RoomSet) : Dev :=
  let old := d.data.rooms[r]
  let outs := releaseOut d.data.outs old new d.rooms[r].dv
  let d := d.setData { d.data with rooms := d.data.rooms.set r new, outs := outs }
  if runsAlignment old new then d.realign r else d

/-- ROOM.SET (R66). -/
def Dev.roomSet (r : Fin 4) (f : RoomFields) (d : Dev) : Dev × Answer :=
  if boundElsewhere d.data.rooms r f.out then (d, .no .state)
  else if RoomFields.any f && d.store.writing then (d, .no .busy)
  else
    let d := d.writeRoom r (roomOfFields d.data.rooms[r] f)
    (d, d.roomReply r)

/-! ## Lanes (R68, R69, R76) -/

/-- The settings a LANE.SET line leaves a lane with (R69). -/
def laneOf (old : LaneSet) (f : LaneFields) : LaneSet :=
  ⟨f.room.getD old.room, f.sub.getD old.sub, f.accent.getD old.accent, f.level.getD old.level, f.mute.getD old.mute⟩

/-- Whether a LANE.SET line gives any field (R69). -/
def LaneFields.any (f : LaneFields) : Bool :=
  f.room.isSome || f.sub.isSome || f.accent.isSome || f.level.isSome || f.mute.isSome

/-- A given subdivision makes the cue subdivision absent (R69). -/
def laneRunOf (old : LaneRun) (f : LaneFields) : LaneRun := if f.sub.isSome then { old with cueSub := none } else old

/-- Every field of a lane in a reply (R69). -/
def Dev.laneReply (d : Dev) (l : Fin 8) : Answer :=
  let s := d.data.lanes[l]
  let r := d.lanes[l]
  .ok
    [bare (.num (l.val + 1)), fn "ROOM" (s.room.val + 1), fn "SUB" s.sub, fw "ACCENT" (onOff s.accent),
      fn "LEVEL" s.level, fw "MUTE" s.mute.word, fw "CUEMUTE" r.cueMute.word, fo "CUESUB" .num r.cueSub,
      fn "EFFSUB" (subdivision s r), fn "PENDING" r.queue.length]

/-- LANE.SET (R69). -/
def Dev.laneSet (l : Fin 8) (f : LaneFields) (d : Dev) : Dev × Answer :=
  if LaneFields.any f && d.store.writing then (d, .no .busy)
  else
    let d := d.setData { d.data with lanes := d.data.lanes.set l (laneOf d.data.lanes[l] f) }
    let d := d.updLane l fun r => laneRunOf r f
    (d, d.laneReply l)

/-! ## The commands -/

/-- ROOM_SET (R66). -/
def execRoomSet (tag : Nat) (r : Fin 4) (f : RoomFields) (s : State) : Host.Outcome State Fault Refusal :=
  s.request (.roomSet tag r f) tag (Dev.roomSet r f)

/-- LANE_SET (R69). -/
def execLaneSet (tag : Nat) (l : Fin 8) (f : LaneFields) (s : State) : Host.Outcome State Fault Refusal :=
  s.request (.laneSet tag l f) tag (Dev.laneSet l f)

/-- BEAT_MARK_CLICK (R71, R73). -/
def execBeatMarkClick (m : BeatMark) (s : State) : Host.Outcome State Fault Refusal :=
  s.run fun d => (d.take (.beatMarkClick m)).clickBeat m

/-- CLICK_DUE (R70). The click sounds whatever the show state: the entry of R75 is the lanes' own event,
LANES_STATE_CHANGE, and until it is taken the queue stands, though the Show Controller has changed state already: the
model's choice (log 41). -/
def execClickDue (lane : Fin 8) (s : State) : Host.Outcome State Fault Refusal :=
  s.run fun d => d.updLane lane (soundHead d.clock)

/-- LANE_ACTION (R76). -/
def execLaneAction (lane : Fin 8) (mute : Mute) (sub : Option Nat) (s : State) : Host.Outcome State Fault Refusal :=
  s.run fun d => (d.take (.laneAction lane mute sub)).updLane lane fun r => r.act mute sub

/-- LANES_STATE_CHANGE (R75). -/
def execLanesStateChange (st : ShowState) (s : State) : Host.Outcome State Fault Refusal :=
  s.run fun d => (d.take (.lanesStateChange st)).lanesChanged st

end Sys2Proof.Machine
end

