-- ==== Sys2Proof/Machine/Show.lean ====
section
/-! DEFINITION. The Show Controller's commands: ARM, GO, the stop holders, the signals of the Beat Engine and the chase
pending count (spec 09). -/

namespace Sys2Proof.Machine

/-! ## ARM (R14, R15, R153) -/

/-- The checks of the Mark Table and the Form Table on ARM, and the armed mark of one that passes (R14, R15). -/
def ShowData.armedMark (s : ShowData) (name : Text) : Except Code Armed :=
  match findMark s.marks name with
  | none => .error .notFound
  | some m =>
    if !covered s.form then .error .gap
    else if !inForm s.form m.pos then .error .range
    else
      match entryOfBar s.form m.pos.bar with
      | some (i, _) => .ok ⟨m, i⟩
      | none => .error .range

/-- What every block does of a taken ARM (R15): the prepared count-in, focus, the stage marking, the chases. -/
def Dev.armBlocks (d : Dev) (a : Armed) : Dev :=
  let m := a.mark.pos
  let d := d.setCtl { d.ctl with armed := some a }
  let d := d.setEng { d.eng with prepared := prepare d.data.form d.eng.period a }
  let d := ((d.armFocus.markCues m).chaseSlots m).chaseLanes m
  d.setVideo { d.video with note := d.chaseNote m }

/-- The show state after a taken ARM (R153). -/
def armState (before : ShowState) (count : Nat) : ShowState :=
  match before with
  | .stopped => .stopped
  | .dark | .arming | .ready | .countIn | .running | .done => if count = 0 then .ready else .arming

/-- A taken ARM; what an earlier change of show state handed over is taken first (R15, R153, R154, log 9). -/
def Dev.takeArm (d : Dev) (a : Armed) : Dev :=
  let before := d.ctl.state
  let d := d.takeShowChanges.armBlocks a
  let after := armState before d.ctl.count
  if after = before then d else d.setShowState after .arm

/-- ARM (R14, R153, R154, R164). -/
def Dev.arm (name : Text) (d : Dev) : Dev × Answer :=
  match d.ctl.state with
  | .countIn | .running => (d, .no .state)
  | .dark | .arming | .ready | .stopped | .done =>
    match d.data.armedMark name with
    | .error c => (d, .no c)
    | .ok a =>
      let d := d.takeArm a
      (d, .ok [fw "" d.ctl.state.word, fn "CHASE" d.ctl.count])

/-! ## GO (R156, R157) -/

/-- A GO that starts the count-in: COUNT_IN, and the GO passed to the Beat Engine (R157). -/
def Dev.startRun (d : Dev) : Dev × Answer :=
  ((d.setShowState .countIn .go).engineGo d.clock, .ok [fw "" "COUNT_IN", fn "CHASE" d.ctl.count])

/-- Whether a GO releases: the engine holds with the kind the show state asks for (R156, log 12). -/
def Dev.releases (d : Dev) : Bool :=
  match d.ctl.state, d.eng.st with
  | .countIn, .hold _ | .running, .hold .point => true
  | _, _ => false

/-- GO and GO FORCE (R156). -/
def Dev.go (force : Bool) (d : Dev) : Dev × Answer :=
  match d.ctl.state with
  | .dark | .done => (d, .no .state)
  | .arming => if force then d.startRun else (d, .no .notReady)
  | .ready => d.startRun
  | .countIn | .running => if d.releases then (d.goRelease d.clock, .ok []) else (d, .no .notHeld)
  | .stopped => (d, .no .held)

/-! ## Stop requests (R159 to R162) -/

/-- STOP (R161). -/
def Dev.stop (reason : Option Nat) (d : Dev) : Dev × Answer :=
  if d.ctl.holders.contains .port then (d, .ok [fw "" "ALREADY"])
  else
    let d := d.addHolder .port (reason.getD 0)
    (d, .ok [fw "" "STOPPED", bare (.num d.ctl.episode)])

/-- The answer of a STOP.CLEAR that names a holder or a party that is none (R162). -/
def clearAnswer (held : Bool) : Answer := .ok [fw "" (if held then "CLEARED" else "ABSENT")]

/-- STOP.CLEAR (R162). -/
def Dev.stopClear (h : Holder) (d : Dev) : Dev × Answer :=
  let held := d.ctl.holders.contains h
  match h with
  | .lineA | .lineB => (d, .no .state)
  | .port => (d.removeHolder .port, clearAnswer held)
  | .station n => ((d.removeHolder (.station n)).takeClear n, clearAnswer held)

/-- A stop line changes level, and its settle time starts (R160). -/
def Dev.lineChange (d : Dev) (l : StopLine) (lv : Level) : Dev :=
  let r := d.ctl.line l
  if lv = r.level then d else d.setCtl (d.ctl.setLine l { r with level := lv, changed := d.clock })

/-- A stop line's level that has held for 10 ms is taken (R160). -/
def Dev.lineTaken (d : Dev) (l : StopLine) : Dev :=
  let r := d.ctl.line l
  if r.due d.clock then
    let d := d.setCtl (d.ctl.setLine l r.takenNow)
    match r.level with
    | .asserted => d.addHolder (lineHolder l) 0
    | .released => d.removeHolder (lineHolder l)
  else d

/-! ## What the other blocks signal (R155, R157, R158) -/

/-- A new chase pending count; in ARMING a count of 0 makes the show READY (R155). -/
def Dev.newCount (d : Dev) (n : Nat) : Dev :=
  let d := d.setCtl { d.ctl with count := n }
  if d.ctl.state = .arming ∧ n = 0 then d.setShowState .ready .loaded else d

/-- The act-end signal (R158). The armed mark is cleared first, so the SHOW notice ACTEND carries no mark: the model's
choice (log 36). -/
def Dev.actEnded (d : Dev) : Dev :=
  if d.ctl.state = .running then (d.clearArmed.clearRun).setShowState .done .actEnd else d

/-- The mark's-beat signal (R157). -/
def Dev.markBeaten (d : Dev) : Dev :=
  if d.ctl.state = .countIn then d.setShowState .running .markBeat else d

/-! ## The commands -/

/-- ARM (R153). -/
def execArm (tag : Nat) (name : Text) (s : State) : Host.Outcome State Fault Refusal :=
  s.request (.arm tag name) tag (Dev.arm name)

/-- GO (R156). -/
def execGo (tag : Nat) (force : Bool) (s : State) : Host.Outcome State Fault Refusal :=
  s.request (.go tag force) tag (Dev.go force)

/-- STOP (R161). -/
def execStop (tag : Nat) (reason : Option Nat) (s : State) : Host.Outcome State Fault Refusal :=
  s.request (.stop tag reason) tag (Dev.stop reason)

/-- STOP_CLEAR (R162). -/
def execStopClear (tag : Nat) (h : Holder) (s : State) : Host.Outcome State Fault Refusal :=
  s.request (.stopClear tag h) tag (Dev.stopClear h)

/-- STOP_LINE_LEVEL_CHANGE (R160). -/
def execStopLineLevelChange (line : StopLine) (level : Level) (s : State) : Host.Outcome State Fault Refusal :=
  s.run fun d => d.lineChange line level

/-- STOP_LINE_TAKEN (R160). -/
def execStopLineTaken (line : StopLine) (s : State) : Host.Outcome State Fault Refusal := s.run fun d => d.lineTaken line

/-- PANIC (R161). -/
def execPanic (n : Fin 16) (s : State) : Host.Outcome State Fault Refusal :=
  s.run fun d => (d.take (.panic n)).addHolder (.station n) 0

/-- CHASE_PENDING_COUNT (R155). -/
def execChasePendingCount (n : Nat) (s : State) : Host.Outcome State Fault Refusal :=
  s.run fun d => (d.take (.chasePendingCount n)).newCount n

/-- ACT_END (R158). -/
def execActEnd (s : State) : Host.Outcome State Fault Refusal := s.run fun d => (d.take .actEnd).actEnded

/-- MARKBEAT (R157). -/
def execMarkbeat (s : State) : Host.Outcome State Fault Refusal := s.run fun d => (d.take .markBeat).markBeaten

end Sys2Proof.Machine
end

