-- ==== Sys2Proof/Machine/Slots.lean ====
section
/-! DEFINITION. The Slot Manager's commands: filters, readings and retries, patch actions and late checks, outcomes,
reports and deadlines, stations joining and going OFF, the entry into STOPPED (spec 06). -/

namespace Sys2Proof.Machine

/-! ## Requests (R100, R101, R109, R116) -/

/-- The filter a SLOT.FILTER line leaves a slot with; a code with no mask keeps the slot's mask (R100, log 17). -/
def newFilter (old : Option Filter) : FilterField → Option Filter
  | .left | .maskAlone _ => old
  | .none => none
  | .code c (some m) => some ⟨c, m⟩
  | .code c none => some ⟨c, (old.map Filter.mask).getD 0#12⟩

/-- The home patch a SLOT.FILTER line leaves a slot with (R100). -/
def newHome (old : Option Nat) : HomeField → Option Nat
  | .left => old
  | .none => none
  | .patch p => some p

/-- The settings of a slot in a reply (R98, R184). DESIGN CHOICE, unsafe (log 45): an absent filter is sent as two
fields, `FILTER=NONE MASK=NONE`. -/
def SlotSet.fields (s : SlotSet) : List Fld :=
  [fo "FILTER" (fun f : Filter => .hex f.code) s.filter, fo "MASK" (fun f : Filter => .hex f.mask) s.filter,
    fo "HOME" .num s.home]

/-- The settings of a slot written, with the recomputation when they change (R100, R101). -/
def Dev.writeSlot (d : Dev) (i : SlotId) (new : SlotSet) : Dev :=
  if new = d.slotSet i then d
  else (d.setData { d.data with slots := d.data.slots.set i.index new }).slotEvent fun d => d.recompute i

/-- SLOT.FILTER (R100, R101). -/
def Dev.slotFilter (f : FilterFields) (d : Dev) : Dev × Answer :=
  if d.store.writing then (d, .no .busy)
  else
    match f with
    | .timeout ms => (d.setData { d.data with timeout := ms }, .ok [fn "TIMEOUT" ms])
    | .slot i flt home =>
      let old := d.slotSet i
      let new : SlotSet := ⟨newFilter old.filter flt, newHome old.home home⟩
      let d := d.writeSlot i new
      let r := d.slot i
      (d, .ok ([bare (.slot i)] ++ new.fields ++
        [fo "DESIRED" .num r.desired, fo "CONFIRMED" .num r.confirmed, fw "STATE" r.req.word]))

/-- SLOT.GET (R116). The reply has the fields of R98's table; the applied timeout, one setting for all slots that R98 names
below it, is left out: the model's choice (log 44). -/
def Dev.slotGet (i : SlotId) (d : Dev) : Dev × Answer :=
  let r := d.slot i
  (d, .ok ([bare (.slot i), fw "PRESENT" (yesNo r.present)] ++ (d.slotSet i).fields ++
    [fo "DESIRED" .num r.desired, fo "CONFIRMED" .num r.confirmed, fw "STATE" r.req.word, fo "REQ" .num r.reqPatch,
      fo "ATTEMPT" .num r.attempt, fw "INFLIGHT" (yesNo r.inFlight), fw "CHASE" (yesNo r.chase),
      fo "DEADLINE" .num r.deadline, fw "STN" (d.station i.station).state.word]))

/-- Whether a slot can be retried (R109). -/
def SlotRun.retryable (r : SlotRun) : Bool := r.req == .fault || r.req == .withheld

/-- A slot retried: IDLE with no chase flag, and a comparison (R109). -/
def Dev.retryOne (d : Dev) (i : SlotId) : Dev :=
  (d.updSlot i fun r => { r.idled with chase := false }).compare i

/-- A slot retried when it is FAULT or WITHHELD (R109). -/
def Dev.retryIf (d : Dev) (i : SlotId) : Dev := if (d.slot i).retryable then d.retryOne i else d

/-- SLOT.RETRY (R109). -/
def Dev.slotRetry (i : Option SlotId) (d : Dev) : Dev × Answer :=
  match i with
  | some i =>
    if (d.slot i).retryable then
      let d := d.slotEvent fun d => d.retryOne i
      (d, .ok [fw "" (d.slot i).req.word])
    else (d, .no .state)
  | none =>
    (d.slotEvent fun d => allSlots.foldl Dev.retryIf d,
      .ok [bare (.num (d.slots.toList.countP SlotRun.retryable))])

/-! ## Actions and late checks (R103, R112) -/

/-- A PATCH action reaches a slot, which takes it when its filter accepts the part code (R99, R103). -/
def Dev.offerPatch (a : PatchAction) (d : Dev) (i : SlotId) : Dev :=
  if (d.slotSet i).accepts a.part then d.newDesired i (some a.patch) else d

/-- A PATCH action reaches every slot, in slot order (R103, log 26). -/
def Dev.patchAction (d : Dev) (a : PatchAction) : Dev := d.slotEvent fun d => allSlots.foldl (Dev.offerPatch a) d

/-- The patch a late check expects of a slot: that of the last action its filter accepts (R112). -/
def expectedPatch (s : SlotSet) (acts : List PatchAction) : Option Nat :=
  ((acts.filter fun a => s.accepts a.part).getLast?).map fun a => a.patch

/-- Whether a slot is late for a patch (R112). -/
def SlotRun.late (r : SlotRun) (p : Nat) : Bool := r.desired == some p && r.confirmed != some p

/-- The late check of one slot (R112). -/
def Dev.lateSlot (cue : Nat) (acts : List PatchAction) (d : Dev) (i : SlotId) : Dev :=
  match expectedPatch (d.slotSet i) acts with
  | some p => if (d.slot i).late p then d.raisePatch (.late cue p) i else d
  | none => d

/-- The late check of a cue, in slot order (R112, log 26). -/
def Dev.lateCheck (d : Dev) (cue : Nat) (acts : List PatchAction) : Dev := allSlots.foldl (Dev.lateSlot cue acts) d

/-! ## Deadlines, outcomes, reports (R104, R105, R107) -/

/-- Whether a slot's applied deadline has been reached (R107). -/
def SlotRun.expired (r : SlotRun) (now : Time) : Bool :=
  r.req == .sent && (match r.deadline with | some t => decide (t ≤ now) | none => false)

/-- A slot becomes FAULT: its request patch and attempt are kept (R105, R107). -/
def SlotRun.faulted (r : SlotRun) : SlotRun := { r with req := .fault, inFlight := false, deadline := none }

/-- The applied deadline of a slot passes (R107). -/
def Dev.deadlinePassed (d : Dev) (i : SlotId) : Dev :=
  if (d.slot i).expired d.clock then
    d.slotEvent fun d =>
      if (d.slot i).attempt = some 2 then (d.updSlot i SlotRun.faulted).raisePatch .timeout i
      else (d.updSlot i fun r => { r with deadline := none }).retrySlot i 2
  else d

/-- Whether the outcome of a PATCH frame applies to a slot (R104). -/
def SlotRun.awaits (r : SlotRun) (p : Nat) : Bool := r.req == .queued && r.inFlight && r.reqPatch == some p

/-- The outcome of a PATCH frame reaches a slot (R104). -/
def Dev.patchOutcome (d : Dev) (i : SlotId) (p : Nat) (st : FrameStatus) : Dev :=
  if (d.slot i).awaits p then
    d.slotEvent fun d =>
      let d := d.updSlot i fun r => { r with inFlight := false }
      match st with
      | .ack => d.updSlot i fun r => { r with req := .sent, deadline := some (d.clock + d.data.timeout * 1000) }
      | .retry | .check | .silent => d.retrySlot i ((d.slot i).attempt.getD 1)
  else d

/-- Whether an APPLIED report is accepted by a slot (R105). -/
def SlotRun.takesReport (r : SlotRun) (p : Nat) (res : ApplyResult) : Bool :=
  r.present && r.reqPatch == some p &&
    match r.req, res with
    | .sent, _ | .queued, _ | .withheld, _ | .fault, .ok => true
    | .fault, .refused | .idle, _ => false

/-- An APPLIED report reaches a slot (R105). -/
def Dev.appliedReport (d : Dev) (i : SlotId) (p : Nat) (res : ApplyResult) : Dev :=
  if (d.slot i).takesReport p res then
    d.slotEvent fun d =>
      match res with
      | .ok => (d.updSlot i fun r => { r with confirmed := some p }).idleCompare i
      | .refused => ((d.unqueue i).updSlot i SlotRun.faulted).raisePatch .refused i
  else d.addStale i.station

/-! ## The commands -/

/-- SLOT_FILTER (R100). -/
def execSlotFilter (tag : Nat) (f : FilterFields) (s : State) : Host.Outcome State Fault Refusal :=
  s.request (.slotFilter tag f) tag (Dev.slotFilter f)

/-- SLOT_GET (R116). -/
def execSlotGet (tag : Nat) (i : SlotId) (s : State) : Host.Outcome State Fault Refusal :=
  s.request (.slotGet tag i) tag (Dev.slotGet i)

/-- SLOT_RETRY (R109). -/
def execSlotRetry (tag : Nat) (i : Option SlotId) (s : State) : Host.Outcome State Fault Refusal :=
  s.request (.slotRetry tag i) tag (Dev.slotRetry i)

/-- PATCH_ACTION (R103). -/
def execPatchAction (cue : Nat) (a : PatchAction) (s : State) : Host.Outcome State Fault Refusal :=
  s.run fun d => (d.take (.patchAction cue a)).patchAction a

/-- LATE_CHECK (R112). -/
def execLateCheck (cue : Nat) (acts : List PatchAction) (seen : SendSeen) (s : State) :
    Host.Outcome State Fault Refusal :=
  s.run fun d => (d.take (.lateCheck cue acts seen)).lateCheck cue acts

/-- APPLIED_DEADLINE (R107). -/
def execAppliedDeadline (i : SlotId) (s : State) : Host.Outcome State Fault Refusal := s.run fun d => d.deadlinePassed i

/-- PATCH_OUTCOME (R104). -/
def execPatchOutcome (i : SlotId) (patch : Nat) (status : FrameStatus) (s : State) :
    Host.Outcome State Fault Refusal :=
  s.run fun d => (d.take (.patchOutcome i patch status)).patchOutcome i patch status

/-- APPLIED_REPORT (R105). -/
def execAppliedReport (i : SlotId) (patch : Nat) (result : ApplyResult) (s : State) :
    Host.Outcome State Fault Refusal :=
  s.run fun d => (d.take (.appliedReport i patch result)).appliedReport i patch result

/-- HELLO_RESYNC (R111). -/
def execHelloResync (n : Fin 16) (k : Nat) (s : State) : Host.Outcome State Fault Refusal :=
  s.run fun d => (d.take (.helloResync n k)).slotEvent fun d => d.resync n k

/-- STATION_OFF_SLOTS (R110). -/
def execStationOffSlots (n : Fin 16) (s : State) : Host.Outcome State Fault Refusal :=
  s.run fun d => (d.take (.stationOffSlots n)).slotEvent fun d => (stationSlots n).foldl Dev.offSlot d

/-- SLOT_STOP (R108). -/
def execSlotStop (s : State) : Host.Outcome State Fault Refusal := s.run fun d => (d.take .slotStop).slotStopped

end Sys2Proof.Machine
end

