-- ==== Sys2Proof/Machine/Store.lean ====
section
/-! DEFINITION. The Show Store's commands, power-on and RESET: what each block's state becomes (spec 10, section 10.4,
and the tables R16, R78, R97, R117, R137, R150, R167). -/

namespace Sys2Proof.Machine

/-! ## Save (R177, R178) -/

/-- SHOW.SAVE: the write begins, the image is INVALID from here, and the show data is written as it stands (R178). -/
def Dev.showSave (d : Dev) : Dev × Answer :=
  if ShowState.playing d.ctl.state then (d, .no .state)
  else if d.store.writing then (d, .no .busy)
  else (d.setStore ⟨some d.clock, .invalid, none, d.data⟩, .ok [fw "" "SAVING"])

/-- A STORE notice (R178, R181). -/
def Dev.raiseStore (d : Dev) (c : StoreCause) : Dev := d.raise (.store c d.store.cond d.clock)

/-- The image's condition by the test of its sum; an image that is not one whole write fails it (R177, R178, log 19). -/
def testSum (sum : Option (BitVec 16)) : ImageCond := if sum = some 0#16 then .valid else .invalid

/-- The cause of the STORE notice at the end of a save (R178). -/
def savedCause : ImageCond → StoreCause
  | .valid => .saved
  | .invalid => .failed

/-- The write completes: the image written is tested by its sum (R177, R178, log 19). A free value is used up, since
the sum the part finds by itself is one (log 29). -/
def Dev.saveComplete (d : Dev) (sum : BitVec 16) : Dev :=
  if d.store.writing then
    let cond := testSum (some sum)
    ((d.setStore ⟨none, cond, some sum, d.store.image⟩).setFresh (d.fresh + 1)).raiseStore (savedCause cond)
  else d

/-! ## Load and erase (R179, R180) -/

/-- The runtime state of every block after show data is replaced by a load or an erase (R17, R45, R49, R65, R78, R97,
R117, R137, R150, R167). `old` is the show data that was in force. -/
def Dev.afterData (d : Dev) (old : ShowData) : Dev :=
  let d := (d.setEng .start).setArb .start
  let d := (d.resetLanes.setSched .start).alignAfresh
  let d := d.setSlots (mapAll SlotRun.loaded d.slots)
  let d := d.setLink { d.link with queue := [], stopPending := none, clears := [] }
  let v := { d.video with note := none }
  let d := d.setVideo (if old.std = d.data.std then v else v.restart d.clock)
  let d := d.resourceOuts old
  (d.withdraw voidAtStop).setCtl { d.ctl with armed := none, count := 0 }

/-- The show data replaced by a taken load or erase; in DONE the show becomes DARK, and the stop record is sent (R167,
R179, R180). -/
def Dev.replaceData (d : Dev) (new : ShowData) (cause : ShowCause) : Dev :=
  let d := (d.setData new).afterData d.data
  (if d.ctl.state = .dark then d else d.setShowState .dark cause).handRecord

/-- The checks a load and an erase share: show state, then store state (R179, R180). -/
def Dev.loadGate (d : Dev) : Option Code :=
  match d.ctl.state with
  | .dark | .done => if d.store.writing then some .busy else none
  | .arming | .ready | .countIn | .running | .stopped => some .state

/-- SHOW.LOAD (R179). -/
def Dev.showLoad (d : Dev) : Dev × Answer :=
  match d.loadGate with
  | some c => (d, .no c)
  | none =>
    match d.store.cond with
    | .invalid => (d, .no .notFound)
    | .valid => (d.replaceData d.store.image .load, .ok [fw "" "LOADED"])

/-- SHOW.ERASE (R180). -/
def Dev.showErase (d : Dev) : Dev × Answer :=
  match d.loadGate with
  | some c => (d, .no c)
  | none =>
    ((d.replaceData .default .erase).setStore { d.store with cond := .invalid, sum := none }, .ok [fw "" "ERASED"])

/-! ## Power-on and RESET (R167, R181, R182) -/

/-- The show comes up: STOPPED when a line is asserted, else DARK, with one SHOW notice START (R152, R167, log 8). -/
def Dev.startShow (d : Dev) (before : Option ShowState) : Dev :=
  match d.ctl.assertedLines with
  | [] => d.raiseShow .start before
  | h :: hs =>
    let d := d.beginStop h 0
    (d.setCtl { d.ctl with holders := h :: hs }).raiseShow .start before

/-- The store at power-on: IDLE, the image's condition found by testing its sum (R177, R178). -/
def Store.poweredUp (s : Store) : Store := { s with began := none, cond := testSum s.sum }

/-- The show data at power-on: the image's when it is VALID, else the defaults (R181). -/
def Store.dataAtPowerOn (s : Store) : ShowData :=
  match s.poweredUp.cond with | .valid => s.image | .invalid => .default

/-- The part at power-on before its notices: the levels on the stop lines and the store's image are what it finds
(R181, log 25). -/
def Dev.poweredUp (d : Dev) : Dev where
  clock := 0
  fresh := d.fresh
  data := d.store.dataAtPowerOn
  eng := .start
  arb := .start
  rooms := Vector.replicate 4 ⟨0, none, 0⟩
  lanes := Vector.replicate 8 .start
  sched := .start
  slots := freshSlots
  link := .start
  video := .start
  ctl :=
    { Control.start with
      lineA := ⟨d.ctl.lineA.level, 0, d.ctl.lineA.level⟩
      lineB := ⟨d.ctl.lineB.level, 0, d.ctl.lineB.level⟩ }
  port := .start
  store := d.store.poweredUp
  handovers := []

/-- POWER_ON (R181). -/
def Dev.powerOn (d : Dev) : Dev :=
  let d := d.poweredUp
  let d := match d.store.cond with | .valid => d | .invalid => d.raiseStore .invalid
  ((d.startShow none).alignAfresh).takeCams.handRecord

/-- The next epoch (R134). -/
def nextEpoch (e : Nat) : Nat := if e = 255 then 1 else e + 1

/-- The runtime state of every block at a RESET request, before its notices (R17, R45, R49, R78, R97, R117, R137, R150,
R167, R182). -/
def Dev.runtimeReset (d : Dev) : Dev :=
  let d := d.setPort
    { d.port with high := [], low := [], missed := [], mask := Port.defaultMask, discarded := 0 }
  let d := (d.setEng .start).setArb .start
  let d := (d.resetLanes.setSched .start).setSlots freshSlots
  let d := d.setLink { Link.start with line := d.link.line, epoch := nextEpoch d.link.epoch }
  let d := d.setVideo { d.video with note := none }
  let d := d.setCtl
    { d.ctl with
      state := .dark
      holders := []
      armed := none
      count := 0
      lineA := d.ctl.lineA.takenNow
      lineB := d.ctl.lineB.takenNow }
  d.setHandovers []

/-- RESET (R182). -/
def Dev.resetRuntime (d : Dev) : Dev × Answer :=
  if d.store.writing then (d, .no .busy)
  else
    let before := d.ctl.state
    let d := (d.runtimeReset.startShow (some before)).handRecord
    (d, .ok [fw "" "RESET", bare (.num d.link.epoch)])

/-! ## The commands -/

/-- SHOW_SAVE (R178). -/
def execShowSave (tag : Nat) (s : State) : Host.Outcome State Fault Refusal := s.request (.showSave tag) tag Dev.showSave

/-- SHOW_LOAD (R179). -/
def execShowLoad (tag : Nat) (s : State) : Host.Outcome State Fault Refusal := s.request (.showLoad tag) tag Dev.showLoad

/-- SHOW_ERASE (R180). -/
def execShowErase (tag : Nat) (s : State) : Host.Outcome State Fault Refusal :=
  s.request (.showErase tag) tag Dev.showErase

/-- SAVE_COMPLETE (R178). -/
def execSaveComplete (sum : BitVec 16) (s : State) : Host.Outcome State Fault Refusal :=
  s.run fun d => d.saveComplete sum

/-- POWER_ON (R181). -/
def execPowerOn (s : State) : Host.Outcome State Fault Refusal := s.run Dev.powerOn

/-- RESET (R182). -/
def execReset (tag : Nat) (s : State) : Host.Outcome State Fault Refusal := s.request (.reset tag) tag Dev.resetRuntime

end Sys2Proof.Machine
end

