-- ==== Sys2Proof/Machine/VideoCmd.lean ====
section
/-! DEFINITION. The Video Unit's commands: standard, outputs, overlay, notes, beat marks, the stop page, the focus
holder and the reference frame (spec 08). -/

namespace Sys2Proof.Machine

/-! ## Standard and outputs (R140, R143) -/

/-- The standard, F and the flash length in a reply (R143). -/
def Dev.videoFields (d : Dev) : List Fld :=
  [fw "STD" d.data.std.word, fn "F" d.data.std.frame, fn "FLASH" d.data.flashLen]

/-- A change of standard: the frame reference, the stores, the cameras and every room (R63, R143). -/
def Dev.changeStandard (d : Dev) (std : Standard) : Dev :=
  let d := d.setData { d.data with std := std }
  (d.setVideo (d.video.restart d.clock)).realignAll

/-- VIDEO.SET (R143). -/
def Dev.videoSet (f : VideoFields) (d : Dev) : Dev × Answer :=
  let std := f.std.getD d.data.std
  if std != d.data.std && ShowState.playing d.ctl.state then (d, .no .state)
  else if (f.std.isSome || f.flash.isSome) && d.store.writing then (d, .no .busy)
  else
    let d := d.setData { d.data with flashLen := f.flash.getD d.data.flashLen }
    let d := if std = d.data.std then d else d.changeStandard std
    (d, .ok d.videoFields)

/-- The settings an OUT.SET line leaves an output with (R140). -/
def outOf (old : OutSet) (f : OutFields) : OutSet :=
  ⟨f.source.getD old.source, f.delay.getD old.portDelay, f.overlay.getD old.overlay⟩

/-- Whether an OUT.SET line gives any field (R140). -/
def OutFields.any (f : OutFields) : Bool := f.source.isSome || f.delay.isSome || f.overlay.isSome

/-- Every field of an output in a reply (R140). -/
def Dev.outReply (d : Dev) (o : Fin 6) : Answer :=
  let s := d.data.outs[o]
  .ok
    [bare (.num (o.val + 1)), fw "SOURCE" s.source.word, fn "PORTDELAY" s.portDelay, fw "OVERLAY" (onOff s.overlay),
      fn "DELAY" (d.delay o), fw "CAMERA" d.video.outs[o].cam.word, fn "FLASH" d.video.outs[o].flash,
      fo "ROOM" (fun r : Fin 4 => .num (r.val + 1)) (roomOf d.data.rooms o)]

/-- An output's settings written; each takes effect at the next frame start (R140, R141, R142). -/
def Dev.writeOut (d : Dev) (o : Fin 6) (f : OutFields) : Dev :=
  let old := d.data.outs[o]
  let new := outOf old f
  let d := d.setData { d.data with outs := d.data.outs.set o new }
  d.setVideo { d.video with outs := d.video.outs.set o (d.video.outs[o].resource old.source new.source) }

/-- OUT.SET (R67, R140). -/
def Dev.outSet (o : Fin 6) (f : OutFields) (d : Dev) : Dev × Answer :=
  if f.delay.isSome && (roomOf d.data.rooms o).isSome then (d, .no .state)
  else if OutFields.any f && d.store.writing then (d, .no .busy)
  else
    let d := if OutFields.any f then d.writeOut o f else d
    (d, d.outReply o)

/-! ## Overlay (R144, R145) -/

/-- The cells of one page changed. -/
def ShowData.setPage (s : ShowData) (pg : PageSel) (p : Page) : ShowData :=
  match pg with
  | .run => { s with runPage := p }
  | .stop => { s with stopPage := p }

/-- How many cells a run of `n` from a column covers, cut at the row end (R144). -/
def cellsCut (col n : Nat) : Nat := min n (33 - col)

/-- A run of cells on a row, each changed by its place in the run (R144). -/
def Page.change (p : Page) (row col n : Nat) (f : Nat → Cell → Cell) : Page :=
  let start := cellIndex row col
  Vector.ofFn fun i : Fin 64 => if start ≤ i.val ∧ i.val < start + n then f (i.val - start) p[i] else p[i]

/-- OVL.TEXT (R144). -/
def Dev.ovlText (pg : PageSel) (row col : Nat) (t : Text) (d : Dev) : Dev × Answer :=
  if d.store.writing then (d, .no .busy)
  else
    let n := cellsCut col t.length
    let page := Page.change (d.data.page pg) row col n fun i c => { c with code := (t[i]?).getD c.code }
    (d.setData (d.data.setPage pg page), .ok [bare (.num n)])

/-- OVL.FLASH (R144). -/
def Dev.ovlFlash (pg : PageSel) (row col count : Nat) (on : Bool) (d : Dev) : Dev × Answer :=
  if d.store.writing then (d, .no .busy)
  else
    let n := cellsCut col count
    let page := Page.change (d.data.page pg) row col n fun _ c => { c with flash := on }
    (d.setData (d.data.setPage pg page), .ok [bare (.num n)])

/-- The spelling of an auto-field (R145). -/
def fieldWord : Field → String
  | .bar => "BAR"
  | .beat => "BEAT"
  | .tempo => "TEMPO"
  | .vamp => "VAMP"
  | .nextCue => "NEXTCUE"
  | .focus => "FOCUS"
  | .note => "NOTE"
  | .holder => "HOLDER"
  | .mark => "MARK"

/-- Whether two fields at two places share a cell (R145). -/
def sharesCell (f : Field) (p : Place) (g : Field) (q : Place) : Bool :=
  p.row == q.row && p.col < q.col + fieldWidth g && q.col < p.col + fieldWidth f

/-- Whether a place for a field shares a cell with another placed field of its page (R145). -/
def Dev.fieldClash (d : Dev) (f : Field) (p : Place) : Bool :=
  allFields.any fun g =>
    g != f && fieldPage g == fieldPage f &&
      match d.data.fields[g.index] with
      | some q => sharesCell f p g q
      | none => false

/-- OVL.FIELD (R145). DESIGN CHOICE, unsafe (log 45): an absent place is answered by one bare NONE. -/
def Dev.ovlField (f : Field) (p : Option Place) (d : Dev) : Dev × Answer :=
  if d.store.writing then (d, .no .busy)
  else if (match p with | some q => d.fieldClash f q | none => false) then (d, .no .overlap)
  else
    (d.setData { d.data with fields := d.data.fields.set f.index p },
      .ok ([fw "" (fieldWord f)] ++ (match p with | some q => [fn "ROW" q.row, fn "COL" q.col] | none => [fw "" "NONE"])))

/-! ## The commands -/

/-- VIDEO_SET (R143). -/
def execVideoSet (tag : Nat) (f : VideoFields) (s : State) : Host.Outcome State Fault Refusal :=
  s.request (.videoSet tag f) tag (Dev.videoSet f)

/-- OUT_SET (R140). -/
def execOutSet (tag : Nat) (o : Fin 6) (f : OutFields) (s : State) : Host.Outcome State Fault Refusal :=
  s.request (.outSet tag o f) tag (Dev.outSet o f)

/-- OVL_TEXT (R144). -/
def execOvlText (tag : Nat) (page : PageSel) (row col : Nat) (text : Text) (s : State) :
    Host.Outcome State Fault Refusal :=
  s.request (.ovlText tag page row col text) tag (Dev.ovlText page row col text)

/-- OVL_FLASH (R144). -/
def execOvlFlash (tag : Nat) (page : PageSel) (row col count : Nat) (on : Bool) (s : State) :
    Host.Outcome State Fault Refusal :=
  s.request (.ovlFlash tag page row col count on) tag (Dev.ovlFlash page row col count on)

/-- OVL_FIELD (R145). -/
def execOvlField (tag : Nat) (field : Field) (place : Option Place) (s : State) : Host.Outcome State Fault Refusal :=
  s.request (.ovlField tag field place) tag (Dev.ovlField field place)

/-- NOTE_ACTION (R147). -/
def execNoteAction (n : Option (Fin 64)) (s : State) : Host.Outcome State Fault Refusal :=
  s.run fun d => let d := d.take (.noteAction n); d.setVideo { d.video with note := n }

/-- BEAT_MARK_VIDEO (R148). -/
def execBeatMarkVideo (m : BeatMark) (s : State) : Host.Outcome State Fault Refusal :=
  s.run fun d => (d.take (.beatMarkVideo m)).tagBeat m

/-- VIDEO_STOP_PAGE (R149). -/
def execVideoStopPage (s : State) : Host.Outcome State Fault Refusal :=
  s.run fun d => (d.take .videoStopPage).stopPages

/-- FOCUS_HANDOVER_VIDEO (R142). -/
def execFocusHandoverVideo (h : Option FocusHand) (s : State) : Host.Outcome State Fault Refusal :=
  s.run fun d => (d.take (.focusHandoverVideo h)).handCams h

/-- REFERENCE_FRAME_START (R138, R139, R141): the next reference frame starts when the clock has reached its time; its
operands are what the two cameras deliver in its slot. -/
def execReferenceFrameStart (cam1 cam2 : Option Nat) (s : State) : Host.Outcome State Fault Refusal :=
  s.run fun d => if d.frameStart d.video.nextFrame ≤ d.clock then d.startReference cam1 cam2 else d

end Sys2Proof.Machine
end

