-- ==== Sys2Proof/Machine/Dispatch.lean ====
section
/-! DEFINITION. Which meaning each command has: one arm for each row of spec/opcode_table.json. -/

namespace Sys2Proof.Machine

/-- The effect of a command on everything but the queue. -/
def exec (i : Instr) (s : State) : Host.Outcome State Fault Refusal :=
  match i with
  | .powerOn => Sys2Proof.Machine.execPowerOn s
  | .reset tag => Sys2Proof.Machine.execReset tag s
  | .lineByteReceived b => Sys2Proof.Machine.execLineByteReceived b s
  | .requestLineTaken => Sys2Proof.Machine.execRequestLineTaken s
  | .outputLineEnd => Sys2Proof.Machine.execOutputLineEnd s
  | .status tag q => Sys2Proof.Machine.execStatus tag q s
  | .formPut tag f => Sys2Proof.Machine.execFormPut tag f s
  | .formDel tag bar => Sys2Proof.Machine.execFormDel tag bar s
  | .formGet tag q => Sys2Proof.Machine.execFormGet tag q s
  | .markPut tag f => Sys2Proof.Machine.execMarkPut tag f s
  | .markDel tag name => Sys2Proof.Machine.execMarkDel tag name s
  | .markGet tag q => Sys2Proof.Machine.execMarkGet tag q s
  | .cuePut tag f => Sys2Proof.Machine.execCuePut tag f s
  | .cueDel tag num => Sys2Proof.Machine.execCueDel tag num s
  | .cueGet tag q => Sys2Proof.Machine.execCueGet tag q s
  | .cueFire tag num => Sys2Proof.Machine.execCueFire tag num s
  | .notePut tag idx text => Sys2Proof.Machine.execNotePut tag idx text s
  | .slotFilter tag f => Sys2Proof.Machine.execSlotFilter tag f s
  | .slotGet tag slot => Sys2Proof.Machine.execSlotGet tag slot s
  | .slotRetry tag slot => Sys2Proof.Machine.execSlotRetry tag slot s
  | .stationSet tag n p => Sys2Proof.Machine.execStationSet tag n p s
  | .stationGet tag n => Sys2Proof.Machine.execStationGet tag n s
  | .srcSet tag x f => Sys2Proof.Machine.execSrcSet tag x f s
  | .srcGet tag x => Sys2Proof.Machine.execSrcGet tag x s
  | .engineSet tag f => Sys2Proof.Machine.execEngineSet tag f s
  | .focusPin tag x => Sys2Proof.Machine.execFocusPin tag x s
  | .focusFree tag clear => Sys2Proof.Machine.execFocusFree tag clear s
  | .tap tag t => Sys2Proof.Machine.execTap tag t s
  | .roomSet tag r f => Sys2Proof.Machine.execRoomSet tag r f s
  | .laneSet tag l f => Sys2Proof.Machine.execLaneSet tag l f s
  | .videoSet tag f => Sys2Proof.Machine.execVideoSet tag f s
  | .outSet tag o f => Sys2Proof.Machine.execOutSet tag o f s
  | .ovlText tag page row col text => Sys2Proof.Machine.execOvlText tag page row col text s
  | .ovlFlash tag page row col count on => Sys2Proof.Machine.execOvlFlash tag page row col count on s
  | .ovlField tag field place => Sys2Proof.Machine.execOvlField tag field place s
  | .arm tag name => Sys2Proof.Machine.execArm tag name s
  | .go tag force => Sys2Proof.Machine.execGo tag force s
  | .stop tag reason => Sys2Proof.Machine.execStop tag reason s
  | .stopClear tag h => Sys2Proof.Machine.execStopClear tag h s
  | .vampOut tag => Sys2Proof.Machine.execVampOut tag s
  | .noticeMask tag f => Sys2Proof.Machine.execNoticeMask tag f s
  | .showSave tag => Sys2Proof.Machine.execShowSave tag s
  | .showLoad tag => Sys2Proof.Machine.execShowLoad tag s
  | .showErase tag => Sys2Proof.Machine.execShowErase tag s
  | .saveComplete sum => Sys2Proof.Machine.execSaveComplete sum s
  | .tapLineEdge line dir => Sys2Proof.Machine.execTapLineEdge line dir s
  | .stopLineLevelChange line level => Sys2Proof.Machine.execStopLineLevelChange line level s
  | .stopLineTaken line => Sys2Proof.Machine.execStopLineTaken line s
  | .beatDue => Sys2Proof.Machine.execBeatDue s
  | .windowClose => Sys2Proof.Machine.execWindowClose s
  | .beatMarkClick m => Sys2Proof.Machine.execBeatMarkClick m s
  | .clickDue lane => Sys2Proof.Machine.execClickDue lane s
  | .beatMarkCue m => Sys2Proof.Machine.execBeatMarkCue m s
  | .stagePendingTime => Sys2Proof.Machine.execStagePendingTime s
  | .beatMarkVideo m => Sys2Proof.Machine.execBeatMarkVideo m s
  | .beatMarkPort m => Sys2Proof.Machine.execBeatMarkPort m s
  | .patchAction cue a => Sys2Proof.Machine.execPatchAction cue a s
  | .laneAction lane mute sub => Sys2Proof.Machine.execLaneAction lane mute sub s
  | .noteAction n => Sys2Proof.Machine.execNoteAction n s
  | .lateCheck cue acts seen => Sys2Proof.Machine.execLateCheck cue acts seen s
  | .appliedDeadline slot => Sys2Proof.Machine.execAppliedDeadline slot s
  | .pollDue => Sys2Proof.Machine.execPollDue s
  | .beaconDue => Sys2Proof.Machine.execBeaconDue s
  | .beaconFrameComplete status => Sys2Proof.Machine.execBeaconFrameComplete status s
  | .patchFrameComplete status => Sys2Proof.Machine.execPatchFrameComplete status s
  | .stopFrameComplete status => Sys2Proof.Machine.execStopFrameComplete status s
  | .clearFrameComplete status => Sys2Proof.Machine.execClearFrameComplete status s
  | .pollFrameComplete status block => Sys2Proof.Machine.execPollFrameComplete status block s
  | .patchOutcome slot patch status => Sys2Proof.Machine.execPatchOutcome slot patch status s
  | .appliedReport slot patch result => Sys2Proof.Machine.execAppliedReport slot patch result s
  | .helloResync n k => Sys2Proof.Machine.execHelloResync n k s
  | .stationOffSlots n => Sys2Proof.Machine.execStationOffSlots n s
  | .panic n => Sys2Proof.Machine.execPanic n s
  | .vampoutReport n => Sys2Proof.Machine.execVampoutReport n s
  | .chasePendingCount n => Sys2Proof.Machine.execChasePendingCount n s
  | .actEnd => Sys2Proof.Machine.execActEnd s
  | .markBeat => Sys2Proof.Machine.execMarkbeat s
  | .lanesStateChange st => Sys2Proof.Machine.execLanesStateChange st s
  | .cueStop => Sys2Proof.Machine.execCueStop s
  | .slotStop => Sys2Proof.Machine.execSlotStop s
  | .videoStopPage => Sys2Proof.Machine.execVideoStopPage s
  | .focusHandoverVideo h => Sys2Proof.Machine.execFocusHandoverVideo h s
  | .referenceFrameStart cam1 cam2 => Sys2Proof.Machine.execReferenceFrameStart cam1 cam2 s

end Sys2Proof.Machine
end

