-- ==== Sys2Proof/Machine/Schedule.lean ====
section
/-! DEFINITION. What the part does by itself: the event that comes next, and the count of the show clock (log 1). -/

namespace Sys2Proof.Machine

/-- The first lane whose head click is due (R70). -/
def Dev.laneDue (d : Dev) : Option (Fin 8) :=
  allLanes.find? fun l =>
    match d.lanes[l].queue with
    | c :: _ => decide (c.due ≤ d.clock)
    | [] => false

/-- Whether a PENDING stage's time has been reached (R88). -/
def Dev.stageDue (d : Dev) : Bool :=
  d.data.cues.any fun c =>
    let r := d.sched.run c.num
    let due (x : Cond) : Bool := match x.time with | some t => decide (t ≤ d.clock) | none => false
    due r.sendCond || due r.atCond

/-- The first slot whose applied deadline has been reached (R107). -/
def Dev.slotDue (d : Dev) : Option SlotId := allSlots.find? fun i => (d.slot i).expired d.clock

/-- The stop line whose level has held for 10 ms (R160). -/
def Dev.lineDue (d : Dev) : Option StopLine :=
  if d.ctl.lineA.due d.clock then some .a else if d.ctl.lineB.due d.clock then some .b else none

/-- A save whose write has taken as long as it may: it completes, with a free sum (R178, log 29). -/
def Dev.saveDue (d : Dev) : Option Instr :=
  match d.store.began with
  | some t => if t + Config.saveTop ≤ d.clock then some (.saveComplete (Config.imageSum d.fresh)) else none
  | none => none

/-- A POLL or BEACON that has come due on an IDLE line (R121, R122). -/
def Dev.frameDue (d : Dev) : Option Instr :=
  if d.link.line.isNone then
    if d.pollIsDue then some .pollDue else if d.beaconIsDue then some .beaconDue else none
  else none

/-- The part's own next event: a hand-over, then the request in hand, then what time has brought, then a request line
(log 1, log 3). -/
def Dev.nextEvent (d : Dev) : Option Instr :=
  d.handovers.head?.or <| d.port.inHand.or <|
    (if d.beatTime.isSome then some .beatDue else none).or <|
      (if d.closeNow.isSome then some .windowClose else none).or <|
        (if d.stageDue then some .stagePendingTime else none).or <|
          (d.laneDue.map .clickDue).or <|
            (d.slotDue.map .appliedDeadline).or <|
              (d.lineDue.map .stopLineTaken).or <|
                d.saveDue.or <| d.frameDue.or <| if d.port.takes then some .requestLineTaken else none

/-- The show clock counts one microsecond; after its last count it shows a free value (00_scope.md "Time", log 2). -/
def Dev.tick (d : Dev) : Dev :=
  if d.clock + 1 < Config.clockSpan then d.setClock (d.clock + 1)
  else (d.setClock (Config.clockAfterLast d.fresh).toNat).setFresh (d.fresh + 1)

end Sys2Proof.Machine
end

