-- ==== Sys2Proof/Machine/Step.lean ====
section
/-! DEFINITION. One step: the command at the front of the queue; on an empty queue the part's own next event, and with
none a count of the show clock. -/

namespace Sys2Proof.Machine

/-- A step of the machine (log 1). -/
def step (s : State) : Host.Outcome State Fault Refusal :=
  match s.pending with
  | c :: rest => exec c { s with pending := rest }
  | [] =>
    match s.dev.nextEvent with
    | some c => exec c s
    | none => .next (s.after Dev.tick)

/-- The command a word spells put at the front of the queue; no word of the table spells one. -/
def State.withFetchWord (s : State) (nbits w : Nat) : State :=
  match decodeTableWord nbits w with
  | some c => { s with pending := c :: s.pending }
  | none => s

end Sys2Proof.Machine
end

