-- ==== Sys2Proof/Safety.lean ====
section
/-! DEFINITION. The words the statements are written in: which blocks of the part a command may change, which notices
it raises, and the invariants every step keeps. -/

namespace Sys2Proof.Machine

/-! ## Frames: what two states of the part have in common -/

/-- A part of the state for a frame: one block, or one of the three parts of the Control Port. `hand` is the request
in hand, `notices` the two queues and the missed flags, `port` the rest of the port. -/
inductive Part
  | clock | fresh | data | eng | arb | rooms | lanes | sched | slots | link | video | ctl | hand | notices | port
  | store | handovers
  deriving DecidableEq, Repr

/-- The port without the request in hand, the notice queues and the missed flags. -/
def Port.rest (p : Port) : Port := { p with inHand := none, high := [], low := [], missed := [] }

/-- Two states of the part agree on a block. -/
def Dev.same : Part → Dev → Dev → Prop
  | .clock, a, b => b.clock = a.clock
  | .fresh, a, b => b.fresh = a.fresh
  | .data, a, b => b.data = a.data
  | .eng, a, b => b.eng = a.eng
  | .arb, a, b => b.arb = a.arb
  | .rooms, a, b => b.rooms = a.rooms
  | .lanes, a, b => b.lanes = a.lanes
  | .sched, a, b => b.sched = a.sched
  | .slots, a, b => b.slots = a.slots
  | .link, a, b => b.link = a.link
  | .video, a, b => b.video = a.video
  | .ctl, a, b => b.ctl = a.ctl
  | .hand, a, b => b.port.inHand = a.port.inHand
  | .notices, a, b => b.port.high = a.port.high ∧ b.port.low = a.port.low ∧ b.port.missed = a.port.missed
  | .port, a, b => b.port.rest = a.port.rest
  | .store, a, b => b.store = a.store
  | .handovers, a, b => b.handovers = a.handovers

/-- `b` is `a` but for the blocks named. -/
def Dev.Keeps (bs : List Part) (a b : Dev) : Prop := ∀ k : Part, k ∉ bs → Dev.same k a b

/-- `b`'s notice queues and missed flags are what raising some notices, in order, makes of `a`'s (R172). -/
def Dev.Raised (ns : List Notice) (a b : Dev) : Prop := Dev.same .notices (a.raiseAll ns) b

/-! ## What a command answers -/

/-- The state a command leaves when its effect leaves the part at `d`: both arbiters have then chosen, and the queue is
as it was. -/
def State.ended (s : State) (d : Dev) : State := { s with dev := d.settle }

/-- The state a request leaves when its owner leaves the part at `d` and gives an answer: the reply slot holds the
answer under the request's tag (R170). -/
def State.replied (s : State) (tag : Nat) (a : Answer) (d : Dev) : State := s.ended (d.answer tag a)

/-! ## Invariants -/

/-- The notice queues hold no more than R172 gives them. -/
def Port.queuesOk (p : Port) : Prop := p.high.length ≤ Config.highCapacity ∧ p.low.length ≤ Config.lowCapacity

/-- A lane's queue holds at most 16 clicks, in order of due time (R70, R74). -/
def LaneRun.queueOk (r : LaneRun) : Prop :=
  r.queue.length ≤ Config.clickCapacity ∧ r.queue.Pairwise fun a b => a.due ≤ b.due

/-- Every lane's queue is in order (R70, R74). -/
def Dev.lanesOk (d : Dev) : Prop := ∀ l : Fin 8, d.lanes[l].queueOk

/-- The show is STOPPED exactly when the stop-holder set is non-empty, and no holder stands in it twice (R151). -/
def Control.stopOk (c : Control) : Prop := (c.state = .stopped ↔ c.holders ≠ []) ∧ c.holders.Nodup

/-- In COUNT and RUN a due time is present, in HOLD and IDLE it is absent (R17). -/
def Engine.dueOk (g : Engine) : Prop := g.due.isSome = true ↔ g.st = .count ∨ g.st = .run

/-- A set pin has a holder, as FOCUS.PIN leaves it and R59, R60 keep it. -/
def Arbiter.pinOk (a : Arbiter) : Prop := a.pin = true → a.focus.isSome = true

/-- A form entry in the ranges of R1, its fields agreeing with one another. -/
def FormEntry.ok (e : FormEntry) : Prop :=
  1 ≤ e.first ∧ 1 ≤ e.count ∧ 1 ≤ e.meter ∧ e.meter ≤ 15 ∧ periodOk e.nominal = true ∧ e.agrees = true

/-- The Form Table holds at most 256 entries in bar order, no two with a bar in common (R1, R2). -/
def formOk (form : List FormEntry) : Prop :=
  form.length ≤ Config.formCapacity ∧ (form.Pairwise fun a b => a.last < b.first) ∧ ∀ e ∈ form, e.ok

/-- The Mark Table holds at most 128 marks, no two with one name, in order of position and name (R11). -/
def marksOk (ms : List Mark) : Prop :=
  ms.length ≤ Config.markCapacity ∧ (ms.map Mark.name).Nodup ∧ ms.Pairwise fun a b => a.before b = true

/-- The cue list holds at most 1024 cues, no two with one number, in list order, and at most 4096 actions (R79). -/
def cuesOk (cs : List Cue) : Prop :=
  cs.length ≤ Config.cueCapacity ∧ (cs.map Cue.num).Nodup ∧ (cs.Pairwise fun a b => a.before b = true) ∧
    poolSize cs ≤ Config.actionCapacity

/-- The five sources' ranks are 1 to 5, no two the same (R45). -/
def ranksOk (p : PerSrc SrcSet) : Prop :=
  (∀ x, 1 ≤ (p.get x).rank ∧ (p.get x).rank ≤ 5) ∧ ∀ x y, (p.get x).rank = (p.get y).rank → x = y

/-- No two rooms have the same bound output (R62). -/
def roomsOk (rooms : Vector RoomSet 4) : Prop :=
  ∀ r q : Fin 4, rooms[r].out.isSome = true → rooms[r].out = rooms[q].out → r = q

/-- The tables of one copy of the show data. -/
def ShowData.tablesOk (s : ShowData) : Prop :=
  formOk s.form ∧ marksOk s.marks ∧ cuesOk s.cues ∧ ranksOk s.srcs ∧ roomsOk s.rooms

/-- P and the P of a prepared count-in lie in the device range (R17, R26, R39). -/
def Engine.periodsOk (g : Engine) : Prop :=
  periodOk (some g.period) = true ∧ ∀ c, g.prepared = some c → periodOk (some c.period) = true

/-- Whether a P lies within an entry's limits (R3, R26). -/
def FormEntry.allows (e : FormEntry) (p : Nat) : Prop := e.limits.1 ≤ p ∧ p ≤ e.limits.2

/-- Whether an armed mark is in force: in ARMING to RUNNING, and in STOPPED with a mark armed (R151, R165). -/
def Control.inForce (c : Control) : Bool :=
  match c.state with
  | .arming | .ready | .countIn | .running => true
  | .stopped => c.armed.isSome
  | .dark | .done => false

/-- P within the limits of the entry it is for (R22, R26, R39): the prepared count-in's, while a mark is in force; and,
in COUNT_IN and RUNNING, where alone the engine runs (R158), the current entry's in COUNT, RUN and HOLD. In COUNT the
current entry is the armed mark's (R17, R40). -/
structure Dev.limitsOk (d : Dev) : Prop where
  prepared : d.ctl.inForce = true →
    ∃ c e, d.eng.prepared = some c ∧ entryAt d.data.form c.entry = some e ∧ e.allows c.period
  counting : d.ctl.state = .countIn ∨ d.ctl.state = .running → d.eng.st = .count →
    d.eng.entry = d.eng.prepared.map fun c => c.entry
  playing  : d.ctl.state = .countIn ∨ d.ctl.state = .running → d.eng.st ≠ .idle →
    ∀ e, d.entryNow = some e → e.allows d.eng.period

/-- The tables of the working data and of the store's image, and the engine's periods, which they bound. -/
structure Dev.tablesOk (d : Dev) : Prop where
  data    : d.data.tablesOk
  image   : d.store.image.tablesOk
  periods : d.eng.periodsOk
  limits  : d.limitsOk

/-- A slot at rest, IDLE or FAULT, carries no chase flag (R114). -/
def SlotRun.restOk (r : SlotRun) : Prop := r.chase = true → r.req ≠ .idle ∧ r.req ≠ .fault

/-- The patch queue holds one entry for every slot that is QUEUED and not in flight, with its request patch, and none
for any other slot (R102). -/
def Dev.queueOk (d : Dev) : Prop :=
  (d.link.queue.map QueueEntry.slot).Nodup ∧
    ∀ i p, ⟨i, p⟩ ∈ d.link.queue ↔
      (d.slot i).req = .queued ∧ (d.slot i).inFlight = false ∧ (d.slot i).reqPatch = some p

/-- Whether a slot waits in the patch queue: QUEUED and not in flight (R102). -/
def SlotRun.waits (r : SlotRun) : Bool := r.req == .queued && !r.inFlight

/-- The slots with the patch queue (R102, R103, R114): a waiting slot's request patch is its desired patch. -/
def Dev.slotsOk (d : Dev) : Prop :=
  (∀ i, (d.slot i).restOk) ∧ d.queueOk ∧
    ∀ i, (d.slot i).waits = true → (d.slot i).desired = (d.slot i).reqPatch ∧ (d.slot i).reqPatch.isSome = true

/-- A PENDING SEND stage has a send point (R84, R87, R93). -/
def Dev.schedOk (d : Dev) : Prop :=
  ∀ n t, (d.sched.run n).sendCond = .pending t → (d.sched.run n).send.isSome = true

/-- The image is VALID exactly when its sum is 0, and it has no sum while a save writes it (R177, R178). -/
def Store.sumOk (s : Store) : Prop := (s.cond = .valid ↔ s.sum = some 0#16) ∧ (s.writing = true → s.sum = none)

/-- Only an output with source FOCUS holds a camera handed over for the next frame start (R142). -/
def Dev.camsOk (d : Dev) : Prop :=
  ∀ o : Fin 6, d.video.outs[o].next.isSome = true → d.data.outs[o].source = .focus

/-- The runtime invariants of the part. -/
structure Dev.Sound (d : Dev) : Prop where
  queues : d.port.queuesOk
  lanes  : d.lanesOk
  stop   : d.ctl.stopOk
  due    : d.eng.dueOk
  pin    : d.arb.pinOk
  slots  : d.slotsOk
  sched  : d.schedOk
  store  : d.store.sumOk
  cams   : d.camsOk

/-! ## A new desired value at a slot -/

/-- A slot's record after a new desired value reaches it, by the table of R103 with the comparison of R102. `ready`
says that the slot is present and its station joined. -/
def SlotRun.given (r : SlotRun) (p : Option Nat) (ready : Bool) : SlotRun :=
  let needs : Prop := p.isSome = true ∧ p ≠ r.confirmed
  let rest : SlotRun :=
    { r with desired := p, req := .idle, reqPatch := none, attempt := none, inFlight := false, deadline := none }
  match r.req with
  | .idle | .fault | .withheld =>
    if needs ∧ ready = true then { rest with req := .queued, reqPatch := p, attempt := some 1 } else rest
  | .queued =>
    if r.inFlight then { r with desired := p } else if needs then { r with desired := p, reqPatch := p } else rest
  | .sent => { r with desired := p }

/-- Whether a slot is present and its station joined (R102). -/
def Dev.ready (d : Dev) (i : SlotId) : Bool := (d.slot i).present && d.joined i.station

/-- The hand-over of a chase pending count that changed (R114, R155). -/
def countHand (a b : Dev) : List Instr :=
  if chaseCount b.slots = chaseCount a.slots then [] else [.chasePendingCount (chaseCount b.slots)]

/-- What an event in the Slot Manager makes of the slots and the patch queue: each slot is as `f` gives it, its chase
flag cleared when it is at rest (R114); the entries of the slots that still wait keep their order, and the slots that
wait anew follow in slot order (R102). -/
def Dev.SlotsAfter (f : SlotId → SlotRun) (a b : Dev) : Prop :=
  (∀ i, b.slot i = { f i with chase := (f i).chase && !((f i).req == .idle || (f i).req == .fault) }) ∧
  b.link = { a.link with queue := b.link.queue } ∧ b.queueOk ∧
  b.link.queue.map QueueEntry.slot =
    ((a.link.queue.map QueueEntry.slot).filter fun i => (f i).waits) ++
      allSlots.filter fun i => (f i).waits && !(a.slot i).waits

/-! ## The health of a station -/

/-- A station's record after a success (no cause) or a failure, by R131 and R132. -/
def Station.counted (r : Station) (e : Option LinkError) : Station :=
  if r.state = .off then r
  else
    let n := match e with | none => r.faults - 1 | some _ => min 256 (r.faults + 8)
    { r with
      state := if n = 256 then .off else if r.state = .absent then .absent else if 96 ≤ n then .warn else .active
      faults := n
      polls := if n = 256 then 0 else r.polls
      lastError := e.or r.lastError }

/-- Whether a station goes OFF between two records (R132). -/
def Station.goesOff (old new : Station) : Bool := old.state != .off && new.state == .off

/-- The STATION notice of a change of state by the fault count (R136). -/
def healthNotices (n : Fin 16) (old new : Station) (t : Time) : List Notice :=
  if old.state = new.state then []
  else [.station (match new.state with | .off => .off | .warn => .warn | .active | .absent => .active) n old.state new t]

/-! ## Stop holders -/

/-- What a stop request of a holder makes of the part (R159, R163): nothing when it holds already; the tail of a
non-empty set; or an entry into STOPPED as a new episode, what it makes void withdrawn (log 9). -/
def Dev.Joins (h : Holder) (reason : Nat) (a b : Dev) : Prop :=
  let c := a.ctl
  let ep := if c.episode = 65535 then 1 else c.episode + 1
  (h ∈ c.holders → b = a) ∧
  (h ∉ c.holders → c.holders ≠ [] → b = { a with ctl := { c with holders := c.holders ++ [h] } }) ∧
  (c.holders = [] →
    Dev.Keeps [.ctl, .eng, .slots, .link, .notices, .handovers] a b ∧
    b.ctl =
      { c with
        state := .stopped
        holders := [h]
        episode := ep
        first := some h
        reason := reason
        stopPos := a.eng.pos
        stopTime := some a.clock
        armed := none
        count := 0 } ∧
    b.eng =
      { a.eng with
        st := .idle
        due := none
        pass := 0
        rel := .none
        counter := 0
        prepared := none
        matchedL := false
        matchedPrev := false
        tm := none
        closes := [] } ∧
    (∀ i, b.slot i = { a.slot i with chase := false }) ∧
    b.link = { a.link with stopPending := some ⟨ep, 0⟩ } ∧
    b.handovers = (a.handovers.filter fun x => !voidAtStop x) ++
      [.cueStop, .slotStop, .lanesStateChange .stopped, .videoStopPage] ∧
    Dev.Raised [.showCtl .stop (some c.state) .stopped ep none a.clock] a b)

/-- What a removal of a holder makes of the part (R159, R165): nothing when it does not hold; one holder fewer; or, the
set then empty, the show leaves STOPPED. -/
def Dev.Leaves (h : Holder) (a b : Dev) : Prop :=
  let c := a.ctl
  let left := c.holders.erase h
  let after : ShowState := if c.armed = none then .dark else if c.count = 0 then .ready else .arming
  (h ∉ c.holders → b = a) ∧
  (h ∈ c.holders → left ≠ [] → b = { a with ctl := { c with holders := left } }) ∧
  (h ∈ c.holders → left = [] →
    Dev.Keeps [.ctl, .notices, .handovers] a b ∧ b.ctl = { c with holders := [], state := after } ∧
    b.handovers = a.handovers ++ [.lanesStateChange after] ∧
    Dev.Raised [.showCtl .release (some c.state) after c.episode c.markName a.clock] a b)

end Sys2Proof.Machine
end

