-- ==== Sys2Proof/Certificates/Slice0/Obligations.lean ====
section
/-! DEFINITION. The statements for the provers, one `Prop` each; OBLIGATIONS.json lists them. -/

open Sys2Proof Sys2Proof.Machine

/-! ## The machine and the control port -/

/-- O1. A step takes the command at the front of the queue and runs it with the rest of the queue. Cites
00_scope.md, 95_what_each_step_holds.md. -/
def Obligations.StepRunsTheFrontCommand : Prop :=
  ∀ (c : Instr) (rest : List Instr) (s : State), s.pending = c :: rest → step s = exec c { s with pending := rest }

/-- O2. On an empty queue the part runs its own next event, and with none the show clock counts one microsecond
(model's choice, log 1, log 2). Cites 00_scope.md, Time. The model's choices in it: log 1 (what a step does on
an empty queue); log 2 (what the clock shows after its last count); log 23 (a time is reached when the clock is
at or past it); log 29 (the free sum of a save the part ends itself). -/
def Obligations.EmptyQueueFollowsTheSchedule : Prop :=
  (∀ d : Dev,
    let now := d.clock
    let reached (t : Option Time) : Bool := t.any fun x => decide (x ≤ now)
    let event (b : Bool) (c : Instr) : Option Instr := if b then some c else none
    let ticks (x : Cond) : Bool := match x with | .pending t => decide (t ≤ now) | _ => false
    let settled (r : LineRun) : Bool := r.level != r.taken && decide (r.changed + 10000 ≤ now)
    let since (start : Option Time) (n : Nat) : Bool := start.all fun t => decide (t + n ≤ now)
    d.nextEvent = List.findSome? id [d.handovers.head?, d.port.inHand,
      event ((d.eng.st == .count || d.eng.st == .run) && reached d.eng.due) .beatDue,
      event (d.eng.closes.any fun c => decide (c.due ≤ now)) .windowClose,
      event (d.data.cues.any fun c => ticks (d.sched.run c.num).sendCond || ticks (d.sched.run c.num).atCond)
        .stagePendingTime,
      (allLanes.find? fun l => reached (d.lanes[l].queue.head?.map fun c => c.due)).map .clickDue,
      (allSlots.find? fun i => (d.slot i).req == .sent && reached (d.slot i).deadline).map .appliedDeadline,
      event (settled d.ctl.lineA) (.stopLineTaken .a), event (settled d.ctl.lineB) (.stopLineTaken .b),
      event (reached (d.store.began.map fun t => t + 4000000)) (.saveComplete (Config.imageSum d.fresh)),
      event (d.link.line.isNone && since d.link.lastPoll 20000) .pollDue,
      event (d.link.line.isNone && since d.link.lastBeacon 100000) .beaconDue,
      event (d.port.reply.isNone && d.port.inHand.isNone && !d.port.lines.isEmpty) .requestLineTaken]) ∧
  ∀ s : State, s.pending = [] →
    (∀ c, s.dev.nextEvent = some c → step s = exec c s) ∧
    (s.dev.nextEvent = none → s.dev.clock + 1 < 281474976710656 →
      step s = .next { s with dev := { s.dev with clock := s.dev.clock + 1 } }) ∧
    (s.dev.nextEvent = none → 281474976710656 ≤ s.dev.clock + 1 →
      step s = .next { s with dev :=
        { s.dev with clock := (Config.clockAfterLast s.dev.fresh).toNat, fresh := s.dev.fresh + 1 } })

/-- O3. Every command answers a next state, leaves the queue as it was, and ends with both arbiters choosing (log
6). Cites 00_scope.md, 10 R169. The model's choices in it: log 6 (when the arbiters choose). -/
def Obligations.EveryCommandAnswersANextState : Prop :=
  ∀ (i : Instr) (s : State), ∃ d : Dev, exec i s = .next (s.ended d)

/-- O4. The output arbiter starts the reply, else the changed stop record, else the oldest high notice, else the
oldest low notice, on a free line only. Cites 10_port_store.md, R171, R172, R175, 09 R166. The model's choices
in it: log 6 (when the arbiters choose); log 22 (when the stop record is handed over); log 39 (things that
become ready to send together are ranked). -/
def Obligations.OutputArbiterTakesTheFirstPresent : Prop :=
  ∀ d : Dev,
    let p : Port :=
      if d.ctl.record = d.port.record then d.port else { d.port with record := d.ctl.record, recordChanged := true }
    (∀ l, p.sending = some l → d.settle.port = p) ∧
    (p.sending = none →
      (∀ r, p.reply = some r → d.settle.port = { p with sending := some (.reply r) }) ∧
      (p.reply = none → p.recordChanged = true →
        d.settle.port = { p with sending := some (.record p.record), recordChanged := false }) ∧
      (∀ n rest, p.reply = none → p.recordChanged = false → p.high = n :: rest →
        d.settle.port = { p with sending := some (.notice n), high := rest }) ∧
      (∀ n rest, p.reply = none → p.recordChanged = false → p.high = [] → p.low = n :: rest →
        d.settle.port = { p with sending := some (.notice n), low := rest }) ∧
      (p.reply = none → p.recordChanged = false → p.high = [] → p.low = [] → d.settle.port = p))

/-- O5. A received byte is stored, ends its line or is dropped by a full buffer; the end of an outgoing line frees
the line and the reply slot. Cites 10 R168, 10 R170, 10 R171. The model's choices in it: log 27 (how the line
buffer counts). -/
def Obligations.LineBytesAndLineEnds : Prop :=
  ∀ s : State,
    let p := s.dev.port
    let used := (p.lines.map fun l => l.bytes.length + 1).sum + p.arriving.length
    (∀ b, 512 ≤ used →
      exec (.lineByteReceived b) s = .next (s.ended { s.dev with port := { p with
          lost := p.lost + 1
          lostAt := if p.lost = 0 then p.arriving.length else p.lostAt
          lastLost := true } })) ∧
    (used < 512 →
      exec (.lineByteReceived 10#8) s = .next (s.ended { s.dev with port :=
        { p with
          lines := p.lines ++
            [⟨if p.lastLost = false ∧ p.arriving.getLast? = some 13#8 then p.arriving.dropLast else p.arriving,
              p.lost, p.lostAt, s.dev.clock⟩]
          arriving := []
          lost := 0
          lostAt := 0
          lastLost := false } })) ∧
    (∀ b, used < 512 → b ≠ 10#8 →
      exec (.lineByteReceived b) s =
        .next (s.ended { s.dev with port := { p with arriving := p.arriving ++ [b], lastLost := false } })) ∧
    (∀ r, p.sending = some (.reply r) → p.reply = some r →
      exec .outputLineEnd s = .next (s.ended { s.dev with port := { p with sending := none, reply := none } })) ∧
    ((∀ r, p.sending = some (.reply r) → p.reply ≠ some r) →
      exec .outputLineEnd s = .next (s.ended { s.dev with port := { p with sending := none } }))

/-- O6. The oldest line is taken only with the reply slot empty, and is discarded, refused, or read as the request
that then waits for its owner. Cites 10 R168, 10 R169, 11 R183. The model's choices in it: log 27 (how the line
buffer counts). -/
def Obligations.RequestLineIsJudgedAndRead : Prop :=
  (∀ s : State,
    let p := s.dev.port
    (p.reply.isSome ∨ p.inHand.isSome ∨ p.lines = [] → exec .requestLineTaken s = .next (s.ended s.dev)) ∧
    (∀ l rest, p.reply = none → p.inHand = none → p.lines = l :: rest →
      let front := if l.dropped = 0 then l.bytes else l.bytes.take l.whole
      (200 < l.bytes.length + l.dropped ∨ readTag front = none →
        exec .requestLineTaken s = .next (s.ended { s.dev with port :=
          { p with lines := rest, discarded := min 65535 (p.discarded + 1) } })) ∧
      (∀ tag text, l.bytes.length + l.dropped ≤ 200 → readTag front = some (tag, text) →
        (l.dropped ≠ 0 →
          exec .requestLineTaken s = .next (s.ended { s.dev with port :=
            { p with lines := rest, reply := some ⟨tag, .no .syntaxErr⟩ } })) ∧
        (∀ c, l.dropped = 0 → readRequest tag l.time text = .error c →
          exec .requestLineTaken s = .next (s.ended { s.dev with port :=
            { p with lines := rest, reply := some ⟨tag, .no c⟩ } })) ∧
        (∀ i, l.dropped = 0 → readRequest tag l.time text = .ok i →
          exec .requestLineTaken s = .next (s.ended { s.dev with port :=
            { p with lines := rest, inHand := some i } }))))) ∧
  (let value (ds : Text) : Nat := ds.foldl (fun n b => 10 * n + (b.toNat - 48)) 0
   let digits (ds : Text) : Prop := ds ≠ [] ∧ ∀ b ∈ ds, 48 ≤ b.toNat ∧ b.toNat ≤ 57
   let capital (b : Byte) : Byte := if 97 ≤ b.toNat ∧ b.toNat ≤ 122 then b - 32#8 else b
   (∀ t tag rest, readTag t = some (tag, rest) ↔
     ∃ ds, t = 35#8 :: ds ++ 32#8 :: rest ∧ digits ds ∧ tag = value ds ∧ 1 ≤ tag ∧ tag ≤ 255) ∧
   (requests.map fun x => x.1) =
     ["STATUS", "FORM.PUT", "FORM.DEL", "FORM.GET", "MARK.PUT", "MARK.DEL", "MARK.GET", "CUE.PUT", "CUE.DEL", "CUE.GET",
       "CUE.FIRE", "NOTE.PUT", "SLOT.FILTER", "SLOT.GET", "SLOT.RETRY", "STATION.SET", "STATION.GET", "SRC.SET", "SRC.GET",
       "ENGINE.SET", "FOCUS.PIN", "FOCUS.FREE", "TAP", "ROOM.SET", "LANE.SET", "VIDEO.SET", "OUT.SET", "OVL.TEXT",
       "OVL.FLASH", "OVL.FIELD", "ARM", "GO", "STOP", "STOP.CLEAR", "VAMP.OUT", "NOTICE.MASK", "SHOW.SAVE", "SHOW.LOAD",
       "SHOW.ERASE", "RESET"] ∧
   (∀ tag at_ rest,
     let known : Prop := ∃ x ∈ requests, ascii x.1 = (rest.takeWhile (· != 32#8)).map capital
     (¬ known → readRequest tag at_ rest = .error .unknown) ∧
     (known → (∃ b ∈ rest, b.toNat < 32 ∨ 126 < b.toNat) ∨ rest.count 34#8 % 2 = 1 ∨
         (∃ a b, 34#8 ∉ a ∧ (rest = a ++ 32#8 :: 32#8 :: b ∨ rest = a ++ [32#8])) →
       readRequest tag at_ rest = .error .syntaxErr) ∧
     (34#8 ∉ rest → readRequest tag at_ (rest.map capital) = readRequest tag at_ rest)) ∧
   (∀ tag at_ ds, digits ds → readRequest tag at_ (ascii "FORM.GET " ++ ds) =
     if 1 ≤ value ds ∧ value ds ≤ 9999 then .ok (.formGet tag (.bar (value ds))) else .error .range) ∧
   let reads (l : String) (i : Instr) : Prop := readRequest 7 5 (ascii l) = .ok i
   let refused (l : String) (c : Code) : Prop := readRequest 7 5 (ascii l) = .error c
   reads "FORM.PUT END bars=4 METER=4 BAR=00000000000012 HOLD=15:4 hold=13:1 MODE=lead"
     (.formPut 7 ⟨12, 4, 4, none, none, none, some .lead, none, [⟨15, 4⟩, ⟨13, 1⟩], true⟩) ∧
   reads "CUE.PUT 47.5 NOTE=3 at=9:2.240 PATCH=0a1/305 LANE=6/open/2"
     (.cuePut 7 ⟨475, ⟨9, 2, 240⟩, none, [.note (some 3), .patch ⟨0x0A1#12, 305⟩, .lane 5 .opened (some 2)]⟩) ∧
   reads "NOTE.PUT 9 TEXT=\"Say \\22go\\22 = 1\"" (.notePut 7 9 (ascii "Say \"go\" = 1")) ∧
   reads "arm m50" (.arm 7 (ascii "M50")) ∧ reads "GO FORCE" (.go 7 true) ∧ reads "GO" (.go 7 false) ∧
   reads "TAP" (.tap 7 5) ∧ reads "SLOT.GET 16D" (.slotGet 7 ⟨15, 3⟩) ∧ reads "STATION.GET STN07" (.stationGet 7 6) ∧
   reads "STOP.CLEAR LINE_A" (.stopClear 7 .lineA) ∧ reads "STOP.CLEAR STN16" (.stopClear 7 (.station 15)) ∧
   refused "GO NOW" .syntaxErr ∧ refused "MARK.PUT NAME=A NAME=A AT=1:1" .syntaxErr ∧
   refused "MARK.PUT NAME=A AT=9 COUNTIN=99999" .syntaxErr ∧ refused "MARK.PUT AT=9:1" .syntaxErr ∧
   refused "MARK.PUT NAME=A AT=9:1 COLOUR=2" .syntaxErr ∧ refused "CUE.DEL 47.55" .syntaxErr ∧
   refused "NOTE.PUT 9 TEXT=\"\\2G\"" .syntaxErr ∧ refused "SLOT.FILTER 2A FILTER=0A" .syntaxErr ∧
   refused "STATION.GET STN7" .syntaxErr ∧ refused "MARK.PUT NAME=A AT=9:1 COUNTIN=99999" .range ∧
   refused "STATION.GET STN17" .range)

/-- O7. Every request writes one answer to the reply slot under its tag and leaves the hand; a value out of its own
range is refused RANGE with nothing changed. Cites 10 R169, step 3, 10 R170. The model's choices in it: log 5 (a
request commanded while a reply waits is taken, its answer written over the slot). -/
def Obligations.EveryRequestIsAnsweredUnderItsTag : Prop :=
  ∀ (i : Instr) (tag : Nat) (s : State), i.tag? = some tag →
    ∃ (a : Answer) (d : Dev),
      exec i s = .next (s.replied tag a d) ∧
      (s.replied tag a d).dev.port.reply = some ⟨tag, a⟩ ∧
      d.port.inHand = (if s.dev.port.inHand = some i then none else s.dev.port.inHand) ∧
      (i.rangeOk = false → a = .no .range ∧ d = s.dev.takeRequest i)

/-- O8. While a save is writing, the requests that change show data, a second save and RESET are refused BUSY and
change nothing. Cites 10 R169, 10 R178, 10 R182. -/
def Obligations.SaveInProgressRefusesChanges : Prop :=
  ∀ (i : Instr) (tag : Nat) (s : State), i.tag? = some tag → i.rangeOk = true → s.dev.store.writing = true →
    (match i with
      | .cuePut .. | .cueDel .. | .notePut .. | .slotFilter .. | .stationSet .. | .srcSet .. | .engineSet ..
      | .ovlText .. | .ovlFlash .. | .ovlField .. | .reset .. => True
      | .formPut _ f =>
        (entryOf f).agrees = true ∧
          (s.dev.ctl.state = .dark ∨ s.dev.ctl.state = .done ∨ s.dev.ctl.state = .stopped)
      | .formDel .. | .markPut .. | .markDel .. =>
        s.dev.ctl.state = .dark ∨ s.dev.ctl.state = .done ∨ s.dev.ctl.state = .stopped
      | .roomSet _ r f =>
        (f.cr.isSome ∨ f.vr.isSome ∨ f.out.isSome ∨ f.name.isSome) ∧
          ∀ o, f.out = some (.out o) → ∀ q : Fin 4, q ≠ r → s.dev.data.rooms[q].out ≠ some o
      | .laneSet _ _ f => f.room.isSome ∨ f.sub.isSome ∨ f.accent.isSome ∨ f.level.isSome ∨ f.mute.isSome
      | .videoSet _ f =>
        (f.std.isSome ∨ f.flash.isSome) ∧
          (f.std.getD s.dev.data.std = s.dev.data.std ∨ (s.dev.ctl.state ≠ .countIn ∧ s.dev.ctl.state ≠ .running))
      | .outSet _ o f =>
        (f.source.isSome ∨ f.delay.isSome ∨ f.overlay.isSome) ∧
          (f.delay = none ∨ ∀ r : Fin 4, s.dev.data.rooms[r].out ≠ some o)
      | .showSave _ => s.dev.ctl.state ≠ .countIn ∧ s.dev.ctl.state ≠ .running
      | .showLoad _ | .showErase _ => s.dev.ctl.state = .dark ∨ s.dev.ctl.state = .done
      | _ => False) →
    exec i s = .next (s.replied tag (.no .busy) (s.dev.takeRequest i))

/-- O9. NOTICE.MASK sets the mask by its form and lists the classes not masked; STATUS lists the missed classes,
clears their flags and changes nothing else. Cites 10 R173, 10 R176, 02 R44, 03 R61, 05 R96, 06 R116, 07 R136,
08 R150, 09 R151, 09 R152. The model's choices in it: log 15 (the keys no rule shows); log 28 (the forms of
NOTICE.MASK); log 38 (the line levels of STATUS SHOW and their times). -/
def Obligations.MaskAndStatusRequests : Prop :=
  ∀ (tag : Nat) (s : State),
    (∀ f, ∃ mask,
      exec (.noticeMask tag f) s = .next (s.replied tag
        (.ok [⟨"", (NoticeClass.all.filter fun c => !mask.contains c).map .cls⟩])
        { s.dev.takeRequest (.noticeMask tag f) with
          port := { (s.dev.takeRequest (.noticeMask tag f)).port with mask := mask } }) ∧
      (f = .all → ∀ c, c ∈ mask) ∧ (f = .none → mask = []) ∧ (f = .default → mask = [.beat, .bar, .tap]) ∧
      ∀ m u, f = .classes m u → ∀ c, c ∈ mask ↔ (c ∈ s.dev.port.mask ∨ c ∈ m) ∧ c ∉ u) ∧
    (∀ q,
      let d := s.dev
      let w (k v : String) : Fld := ⟨k, [.word v]⟩
      let n (k : String) (v : Nat) : Fld := ⟨k, [.num v]⟩
      let opt (k : String) (v : Option Val) : Fld := ⟨k, v.toList⟩
      let show_ : List Fld :=
        [w "STATE" d.ctl.state.word, ⟨"HOLDERS", d.ctl.holders.map .holder⟩, n "EP" d.ctl.episode,
          opt "MARK" ((d.ctl.armed.map fun a => a.mark.name).map .name), n "CHASE" d.ctl.count]
      let focus : List Fld :=
        [opt "FOCUS" ((d.arb.focus.map Focus.src).map fun x => .word x.word),
          opt "STATUS" ((d.arb.focus.map Focus.status).map fun x => .word x.word)]
      let queues : List Fld := [n "HIGH" d.port.high.length, n "LOW" d.port.low.length]
      let pos : Fld := opt "POS" (d.eng.pos.map .pos)
      let tempo : Fld := n "TEMPO" (tempoShown d.eng.period)
      let slotsIn (r : Req) : Nat := d.slots.toList.countP fun x => x.req == r
      let stationsIn (h : Health) : Nat := d.link.stations.toList.countP fun x => x.state == h
      let cam (c : CamRun) : String := if c.locked then "LOCKED" else "LOST"
      let fields : List Fld :=
        match q with
        | .top =>
          show_ ++ ([w "ENGINE" d.eng.st.word, pos, tempo] ++ focus ++
            [w "STORE" (if d.store.began.isSome then "WRITING" else "IDLE"), w "IMAGE" d.store.cond.word]) ++ queues
        | .showCtl => show_ ++ [⟨"LINE_A", [.word d.ctl.lineA.taken.word, .num d.ctl.lineA.changed]⟩,
            ⟨"LINE_B", [.word d.ctl.lineB.taken.word, .num d.ctl.lineB.changed]⟩]
        | .engine =>
          [w "ENGINE" d.eng.st.word, pos, n "P" d.eng.period, tempo, opt "N" (d.eng.due.map .num),
            opt "ENTRY" ((if d.eng.st = .hold .mark then d.eng.prepared.map Prepared.entry else d.eng.entry).map .num),
            n "PASS" d.eng.pass, w "RELEASE" d.eng.rel.word, n "COUNT" d.eng.counter]
        | .focus => focus ++ [n "MISSES" d.arb.misses, w "PIN" (if d.arb.pin then "SET" else "CLEAR")]
        | .cues =>
          [n "CUES" d.data.cues.length, n "ACTIONS" (poolSize d.data.cues),
            opt "NEXT" (d.nextCue.map fun c => .cue c.num), n "PENDING" d.pendingStages,
            opt "M" (d.sched.ctx.map fun x => .pos x.mark),
            opt "CURSOR" ((d.sched.ctx.bind RunCtx.cursor).map fun c => .pos c.pos)]
        | .slots =>
          [n "CHASE" (chaseCount d.slots), n "QUEUE" d.link.queue.length, n "QUEUED" (slotsIn .queued),
            n "SENT" (slotsIn .sent), n "WITHHELD" (slotsIn .withheld), n "FAULT" (slotsIn .fault)]
        | .link =>
          [n "EPOCH" d.link.epoch, n "ROTATION" (d.link.rotation.val + 1),
            opt "FRAME" (d.link.line.map fun f => .word f.kind.word), n "QUEUE" d.link.queue.length,
            ⟨"STOP", match d.link.stopPending with | some p => [.num p.episode, .num p.sends] | none => []⟩,
            ⟨"CLEARS", d.link.clears.map fun c => .station c.station⟩, n "ABSENT" (stationsIn .absent),
            n "ACTIVE" (stationsIn .active), n "WARN" (stationsIn .warn), n "OFF" (stationsIn .off)]
        | .video =>
          [w "STD" d.data.std.word, n "F" d.data.std.frame, n "FLASH" d.data.flashLen,
            opt "NOTE" (d.video.note.map fun i => .num i.val), w "CAM1" (cam d.video.cam1),
            n "MISSING1" d.video.cam1.missing, w "CAM2" (cam d.video.cam2), n "MISSING2" d.video.cam2.missing]
        | .out o =>
          let run := d.video.outs[o]
          [n "OUT" (o.val + 1), w "SOURCE" d.data.outs[o].source.word, w "CAMERA" run.cam.word,
            n "DELAY" (d.delay o), opt "ROOM" ((roomOf d.data.rooms o).map fun r => .num (r.val + 1)),
            w "OVERLAY" (if d.data.outs[o].overlay then "ON" else "OFF"),
            w "PAGE" (match run.shown.page with | some .run => "RUN" | some .stop => "STOP" | none => "NONE"),
            w "SLOT" (match run.shown.pic with | .live _ => "FRAME" | .held _ => "HELD" | .black => "BLACK")]
        | .port => [⟨"MASKED", d.port.mask.map .cls⟩] ++ queues ++ [n "DISCARDED" d.port.discarded]
      exec (.status tag q) s = .next (s.replied tag
        (.ok (⟨"MISSED", (NoticeClass.all.filter fun c => d.port.missed.contains c).map .cls⟩ :: fields))
        { d.takeRequest (.status tag q) with port := { (d.takeRequest (.status tag q)).port with missed := [] } }))

/-- O10. A notice is dropped when masked, queued when there is room, and else sets its missed flag; a beat mark
raises BEAT and, on a downbeat, BAR. Cites 10 R172, 10 R174. The model's choices in it: log 42 (the tempo of
BEAT and BAR notices). -/
def Obligations.RaisedNoticesAndBeatNotices : Prop :=
  (∀ (d : Dev) (n : Notice),
    (n.cls ∈ d.port.mask → d.raise n = d) ∧
    (n.cls ∉ d.port.mask → n.cls ∈ [.showCtl, .focus, .patch, .station, .align, .video, .store] →
      (d.port.high.length < 32 → d.raise n = { d with port := { d.port with high := d.port.high ++ [n] } }) ∧
      (32 ≤ d.port.high.length → ∃ missed,
        d.raise n = { d with port := { d.port with missed := missed } } ∧
          ∀ c, c ∈ missed ↔ c ∈ d.port.missed ∨ c = n.cls)) ∧
    (n.cls ∉ d.port.mask → n.cls ∈ [.cue, .beat, .bar, .vamp, .edit, .tap] →
      (d.port.low.length < 64 → d.raise n = { d with port := { d.port with low := d.port.low ++ [n] } }) ∧
      (64 ≤ d.port.low.length → ∃ missed,
        d.raise n = { d with port := { d.port with missed := missed } } ∧
          ∀ c, c ∈ missed ↔ c ∈ d.port.missed ∨ c = n.cls))) ∧
  (∀ (m : BeatMark) (s : State), ∃ d,
    exec (.beatMarkPort m) s = .next (s.ended d) ∧ Dev.Keeps [.notices, .handovers] s.dev d ∧
    d.handovers = s.dev.handovers.erase (.beatMarkPort m) ∧
    Dev.Raised (if m.kind = .downbeat then [.beat m, .bar m] else [.beat m]) s.dev d)

/-! ## The Form Table and the Mark Table -/

/-- O11. A taken FORM.PUT writes the line's entry, with R1's defaults, in place of the one with its first bar, keeps
every other entry, and answers its index. Cites 01 R1, 01 R5, 01 R6, 09 R164. The model's choices in it: log 9
(which hand-overs a stop or an ARM withdraws or takes first). -/
def Obligations.FormPutWritesOneEntry : Prop :=
  ∀ (tag : Nat) (f : FormFields) (s : State),
    formOk s.dev.data.form → f.ok = true → (entryOf f).agrees = true → s.dev.store.writing = false →
    (s.dev.ctl.state = .dark ∨ s.dev.ctl.state = .done ∨ s.dev.ctl.state = .stopped) →
    (∀ e ∈ s.dev.data.form, e.first ≠ f.first → e.last < f.first ∨ f.first + f.count - 1 < e.first) →
    ((∃ e ∈ s.dev.data.form, e.first = f.first) ∨ s.dev.data.form.length < 256) →
    ∃ (k : Nat) (e : FormEntry) (d : Dev),
      exec (.formPut tag f) s = .next (s.replied tag (.ok [⟨"", [.num k]⟩]) d) ∧
      e.first = f.first ∧ e.count = f.count ∧ e.meter = f.meter ∧ e.nominal = f.nominal ∧
      e.policy = f.policy.getD (if f.nominal.isSome then .nominal else .keep) ∧ e.band = f.band.getD 0 ∧
      e.mode = f.mode.getD .follow ∧ e.vamp = f.vamp ∧ e.actEnd = f.actEnd ∧ (∀ p, p ∈ e.holds ↔ p ∈ f.holds) ∧
      d.data = { s.dev.data with form := d.data.form } ∧
      entryAt d.data.form k = some e ∧
      (∀ x, x ∈ d.data.form ↔ x = e ∨ (x ∈ s.dev.data.form ∧ x.first ≠ f.first)) ∧
      (s.dev.ctl.state ≠ .stopped → Dev.Keeps [.data, .hand] s.dev d) ∧
      (s.dev.ctl.state = .stopped →
        Dev.Keeps [.data, .hand, .ctl, .eng, .slots, .sched, .handovers] s.dev d ∧
        d.ctl = { s.dev.ctl with armed := none, count := 0 } ∧ d.eng = { s.dev.eng with prepared := none } ∧
        d.sched = { s.dev.sched with ctx := none } ∧
        d.handovers = s.dev.handovers.filter (fun x => !isCount x) ∧
        ∀ i, d.slot i = { s.dev.slot i with chase := false })

/-- O12. The refusals of the form and mark edits: RANGE for fields that disagree, STATE while armed or playing,
OVERLAP, FULL and NOTFOUND, nothing changed. Cites 01 R1, 01 R5, 01 R6, 01 R7, 01 R12, 01 R13. -/
def Obligations.FormAndMarkEditsAreRefused : Prop :=
  ∀ (tag : Nat) (s : State),
    let refused (i : Instr) (c : Code) : Prop := exec i s = .next (s.replied tag (.no c) (s.dev.takeRequest i))
    let busyStates : Prop :=
      s.dev.ctl.state = .arming ∨ s.dev.ctl.state = .ready ∨ s.dev.ctl.state = .countIn ∨ s.dev.ctl.state = .running
    let open_ : Prop :=
      s.dev.store.writing = false ∧
        (s.dev.ctl.state = .dark ∨ s.dev.ctl.state = .done ∨ s.dev.ctl.state = .stopped)
    (∀ f : FormFields, f.ok = true → (entryOf f).agrees = false → refused (.formPut tag f) .range) ∧
    (∀ f : FormFields, f.ok = true → (entryOf f).agrees = true → busyStates → refused (.formPut tag f) .state) ∧
    (∀ b, 1 ≤ b → b ≤ 9999 → busyStates → refused (.formDel tag b) .state) ∧
    (∀ f : MarkFields, f.ok = true → busyStates → refused (.markPut tag f) .state) ∧
    (∀ n, nameOk 8 n = true → busyStates → refused (.markDel tag n) .state) ∧
    (∀ f : FormFields, f.ok = true → (entryOf f).agrees = true → open_ →
      (∃ e ∈ s.dev.data.form, e.first ≠ f.first ∧ f.first ≤ e.last ∧ e.first ≤ f.first + f.count - 1) →
      refused (.formPut tag f) .overlap) ∧
    (∀ f : FormFields, f.ok = true → (entryOf f).agrees = true → open_ →
      (∀ e ∈ s.dev.data.form, e.last < f.first ∨ f.first + f.count - 1 < e.first) →
      (∀ e ∈ s.dev.data.form, e.first ≠ f.first) → 256 ≤ s.dev.data.form.length →
      refused (.formPut tag f) .full) ∧
    (∀ b, 1 ≤ b → b ≤ 9999 → open_ → (∀ e ∈ s.dev.data.form, e.first ≠ b) → refused (.formDel tag b) .notFound) ∧
    (∀ f : MarkFields, f.ok = true → open_ → (∀ m ∈ s.dev.data.marks, m.name ≠ f.name) →
      128 ≤ s.dev.data.marks.length → refused (.markPut tag f) .full) ∧
    (∀ n, nameOk 8 n = true → open_ → (∀ m ∈ s.dev.data.marks, m.name ≠ n) → refused (.markDel tag n) .notFound)

/-- O13. FORM.DEL, MARK.PUT and MARK.DEL change one row of their table, answer the table's size, and in STOPPED
clear the armed mark. Cites 01 R5, 01 R7, 01 R12, 01 R13. The model's choices in it: log 9 (which hand-overs a
stop or an ARM withdraws or takes first). -/
def Obligations.FormDelAndMarkEditsAreTaken : Prop :=
  ∀ (tag : Nat) (s : State), s.dev.store.writing = false →
    (s.dev.ctl.state = .dark ∨ s.dev.ctl.state = .done ∨ s.dev.ctl.state = .stopped) →
    let edited (d : Dev) : Prop :=
      (s.dev.ctl.state ≠ .stopped → Dev.Keeps [.data, .hand] s.dev d) ∧
      (s.dev.ctl.state = .stopped →
        Dev.Keeps [.data, .hand, .ctl, .eng, .slots, .sched, .handovers] s.dev d ∧
        d.ctl = { s.dev.ctl with armed := none, count := 0 } ∧ d.eng = { s.dev.eng with prepared := none } ∧
        d.sched = { s.dev.sched with ctx := none } ∧
        d.handovers = s.dev.handovers.filter (fun x => !isCount x) ∧
        ∀ i, d.slot i = { s.dev.slot i with chase := false })
    (∀ b, 1 ≤ b → b ≤ 9999 → (∃ e ∈ s.dev.data.form, e.first = b) → ∃ d,
      exec (.formDel tag b) s = .next (s.replied tag (.ok [⟨"", [.num d.data.form.length]⟩]) d) ∧
      d.data = { s.dev.data with form := s.dev.data.form.filter fun e => e.first != b } ∧ edited d) ∧
    (∀ f : MarkFields, f.ok = true →
      ((∃ m ∈ s.dev.data.marks, m.name = f.name) ∨ s.dev.data.marks.length < 128) → ∃ d,
      exec (.markPut tag f) s = .next (s.replied tag (.ok [⟨"", [.num d.data.marks.length]⟩]) d) ∧
      d.data = { s.dev.data with marks := d.data.marks } ∧
      (∀ m, m ∈ d.data.marks ↔
        m = ⟨f.name, f.pos, f.countIn.getD 1, f.tempo⟩ ∨ (m ∈ s.dev.data.marks ∧ m.name ≠ f.name)) ∧
      edited d) ∧
    (∀ n, nameOk 8 n = true → (∃ m ∈ s.dev.data.marks, m.name = n) → ∃ d,
      exec (.markDel tag n) s = .next (s.replied tag (.ok [⟨"", [.num d.data.marks.length]⟩]) d) ∧
      d.data = { s.dev.data with marks := s.dev.data.marks.filter fun m => m.name != n } ∧ edited d)

/-- O14. FORM.GET, MARK.GET, CUE.GET, SLOT.GET, STATION.GET and SRC.GET answer from the tables in every show state,
during a save too, and change nothing. Cites 01 R8, 01 R13, 03 R46, 05 R83, 06 R116, 07 R135. The model's
choices in it: log 14 (which reply leaves an absent field out); log 15 (the keys no rule shows); log 44
(SLOT.GET sends no applied timeout); log 45 (a LANE action with no subdivision is sent without that member, and a slot
with no filter as FILTER=NONE MASK=NONE). -/
def Obligations.ReadingsChangeNothing : Prop :=
  ∀ (tag : Nat) (s : State),
    let reads (i : Instr) (a : Answer) : Prop := exec i s = .next (s.replied tag a (s.dev.takeRequest i))
    let form := s.dev.data.form
    let marks := s.dev.data.marks
    let w (k v : String) : Fld := ⟨k, [.word v]⟩
    let n (k : String) (v : Nat) : Fld := ⟨k, [.num v]⟩
    let entry (k : Nat) (e : FormEntry) : Answer :=
      .ok ([⟨"", [.num k]⟩, n "BAR" e.first, n "BARS" e.count, n "METER" e.meter] ++
        e.nominal.toList.map (n "PERIOD") ++
        [w "POLICY" e.policy.word, n "BAND" e.band, w "MODE" e.mode.word] ++ e.vamp.toList.map (n "VAMP") ++
        e.holds.map (fun p => ⟨"HOLD", [.pos p]⟩) ++ (if e.actEnd then [w "" "END"] else []) ++
        [n "LO" e.limits.1, n "HI" e.limits.2])
    let mark (m : Mark) : Answer :=
      .ok ([⟨"NAME", [.name m.name]⟩, ⟨"AT", [.pos m.pos]⟩, n "COUNTIN" m.countIn] ++ m.tempo.toList.map (n "TEMPO"))
    let yes (b : Bool) : String := if b then "YES" else "NO"
    let opt (k : String) (v : Option Val) : Fld := ⟨k, v.toList⟩
    let cues := s.dev.data.cues
    let waits (c : Cue) : Bool := (s.dev.sched.run c.num).atCond != .fired && (s.dev.sched.run c.num).atCond != .passed
    let cue (c : Cue) : Answer :=
      let r := s.dev.sched.run c.num
      .ok ([⟨"", [.cue c.num]⟩, ⟨"AT", [.tpos c.pos]⟩, n "LEAD" c.lead] ++ c.actions.map Action.field ++
        [opt "SEND" (r.send.map .tpos), opt "PLACE" (r.placement.map fun p => .word p.word),
          w "SENDSTAGE" r.sendCond.word, w "ATSTAGE" r.atCond.word])
    reads (.formGet tag .summary)
      (.ok [⟨"", [.num form.length]⟩, n "LAST" (lastBar form), w "COVER" (if covered form then "YES" else "NO")]) ∧
    (∀ b, 1 ≤ b → b ≤ 9999 → ∃ a, reads (.formGet tag (.bar b)) a ∧
      (∀ k e, entryOfBar form b = some (k, e) → a = entry k e) ∧
      (∀ k e, formOk form → entryAt form k = some e → e.first ≤ b → b ≤ e.last → a = entry k e) ∧
      ((∀ e ∈ form, ¬ (e.first ≤ b ∧ b ≤ e.last)) → a = .no .notFound)) ∧
    (∀ b, b ≤ 9999 → ∃ a, reads (.formGet tag (.after b)) a ∧
      (a = .no .notFound ↔ ∀ e ∈ form, e.first ≤ b) ∧
      (∀ k e, formOk form → entryAt form k = some e → b < e.first → (∀ x ∈ form, b < x.first → e.first ≤ x.first) →
        a = entry k e)) ∧
    (∀ q : MarkQuery, q.ok = true → ∃ a, reads (.markGet tag q) a ∧
      (q = .first → (a = .no .notFound ↔ marks = []) ∧ ∀ m ms, marks = m :: ms → a = mark m) ∧
      (∀ n, q = .named n → (a = .no .notFound ↔ ∀ m ∈ marks, m.name ≠ n)) ∧
      ((marks.map Mark.name).Nodup →
        (∀ m ∈ marks, q = .named m.name → a = mark m) ∧
        (∀ n, q = .after n → (∀ m ∈ marks, m.name ≠ n) → a = .no .notFound) ∧
        ∀ l x r, marks = l ++ x :: r → q = .after x.name →
          a = match r with | m :: _ => mark m | [] => .no .notFound)) ∧
    (∀ q : CueQuery, q.ok = true → ∃ a, reads (.cueGet tag q) a ∧
      (q = .summary → a = .ok [n "CUES" cues.length, n "ACTIONS" (poolSize cues),
        opt "NEXT" ((cues.find? waits).map fun c => .cue c.num)]) ∧
      (q = .first → a = match cues with | c :: _ => cue c | [] => .no .notFound) ∧
      (∀ k, q = .num k → (a = .no .notFound ↔ ∀ c ∈ cues, c.num ≠ k)) ∧
      (∀ k, q = .after k → (∀ c ∈ cues, c.num ≠ k) → a = .no .notFound) ∧
      ((cues.map Cue.num).Nodup →
        (∀ c ∈ cues, q = .num c.num → a = cue c) ∧
        ∀ l x r, cues = l ++ x :: r → q = .after x.num →
          a = match r with | c :: _ => cue c | [] => .no .notFound)) ∧
    (∀ i, reads (.slotGet tag i)
      (let r := s.dev.slot i
       let set := s.dev.data.slots[i.index]
       .ok [⟨"", [.slot i]⟩, w "PRESENT" (yes r.present), opt "FILTER" (set.filter.map fun f => .hex f.code),
        opt "MASK" (set.filter.map fun f => .hex f.mask), opt "HOME" (set.home.map .num),
        opt "DESIRED" (r.desired.map .num), opt "CONFIRMED" (r.confirmed.map .num), w "STATE" r.req.word,
        opt "REQ" (r.reqPatch.map .num), opt "ATTEMPT" (r.attempt.map .num), w "INFLIGHT" (yes r.inFlight),
        w "CHASE" (yes r.chase), opt "DEADLINE" (r.deadline.map .num), w "STN" (s.dev.station i.station).state.word])) ∧
    (∀ k, reads (.stationGet tag k)
      (let r := s.dev.station k
       .ok [⟨"", [.station k]⟩, w "STATE" r.state.word, n "FAULTS" r.faults, n "POLLS" r.polls, n "SLOTS" r.slotCount,
        w "VAMPOUT" s.dev.data.perms[k].word, ⟨"ERROR", (r.lastError.map fun e => Val.word e.word).toList⟩,
        n "STALE" r.stale])) ∧
    (∀ x, reads (.srcGet tag x)
      (let set := s.dev.data.srcs.get x
       let r := s.dev.arb.srcs.get x
       .ok ([w "" x.word, n "RANK" set.rank, opt "EDGE" (set.edge.map fun e => .word e.word), n "DEBOUNCE" set.debounce,
        opt "CAMERA" (set.camera.map fun c => .word c.word), ⟨"NAME", [.name set.name]⟩, n "TAPS" r.taps,
        n "BOUNCES" r.bounces, n "STRAYS" r.strays, n "CLAIMS" r.claims,
        opt "CLAIMBEAT" (r.claimBeat.map fun b => .pos b.pos), opt "CLAIMTAP" (r.claimTap.map .num),
        opt "LAST" (r.lastTap.map .num)] ++
        match s.dev.arb.focus with
        | some f => if f.src = x then [w "HOLDER" "YES", w "STATUS" f.status.word,
            w "PIN" (if s.dev.arb.pin then "SET" else "CLEAR")] else [w "HOLDER" "NO"]
        | none => [w "HOLDER" "NO"])))

/-- O15. An entry's P limits are the device range with no nominal period or band 0, else n - d and n + d cut to the
device range, and FORM.GET returns both. Cites R3. -/
def Obligations.PeriodLimitsFollowTheBand : Prop :=
  ∀ e : FormEntry,
    (e.nominal = none ∨ e.band = 0 → e.limits = (200000, 2000000)) ∧
    (∀ n, e.nominal = some n → 200000 ≤ n → n ≤ 2000000 → 1 ≤ e.band → e.band ≤ 32 →
      e.limits = (max (n - n * e.band / 64) 200000, min (n + n * e.band / 64) 2000000) ∧
      e.limits.1 ≤ n ∧ n ≤ e.limits.2) ∧
    ∀ k, ∃ fs, entryReply k e = .ok fs ∧ ⟨"LO", [.num e.limits.1]⟩ ∈ fs ∧ ⟨"HI", [.num e.limits.2]⟩ ∈ fs

/-- O16. The lead walk takes the previous-beat step once per lead beat, keeps the tick, stays in a covered form, and
stops at 1:1.0 only when a step is wanted from 1:1. Cites 01 R9, 01 R10. -/
def Obligations.LeadWalkStaysInTheForm : Prop :=
  ∀ (form : List FormEntry) (p : TPos), covered form = true → (∀ e ∈ form, 1 ≤ e.count ∧ 1 ≤ e.meter) →
    inForm form p.toPos = true → 1 ≤ p.bar →
    leadWalk form p 0 = p ∧
    (∀ l q, prevBeat form p = some q → leadWalk form p (l + 1) = leadWalk form q l) ∧
    (∀ l, prevBeat form p = none → leadWalk form p (l + 1) = ⟨1, 1, 0⟩) ∧
    (prevBeat form p = none ↔ p.bar = 1 ∧ p.beat = 1) ∧
    (1 < p.beat → prevBeat form p = some ⟨p.bar, p.beat - 1, p.tick⟩) ∧
    (p.beat = 1 → 1 < p.bar → ∃ m, meterOf form (p.bar - 1) = some m ∧ prevBeat form p = some ⟨p.bar - 1, m, p.tick⟩) ∧
    ∀ l, inForm form (leadWalk form p l).toPos = true ∧
      ((leadWalk form p l).tick = p.tick ∨ leadWalk form p l = ⟨1, 1, 0⟩)

/-! ## The Beat Engine and the Source Arbiter -/

/-- O17. ENGINE.SET and SRC.SET write the fields their lines give, keep the others, and leave the five ranks
distinct. Cites 02 R18, 03 R46. The model's choices in it: log 15 (the keys no rule shows); log 33 (the reply of
SRC.SET with no exchange). -/
def Obligations.EngineAndSourceSettings : Prop :=
  ∀ (tag : Nat) (s : State), s.dev.store.writing = false →
    (∀ f : EngineFields, f.ok = true → ∃ d,
      exec (.engineSet tag f) s = .next (s.replied tag
        (.ok [⟨"W", [.num d.data.engine.w]⟩, ⟨"KT", [.num d.data.engine.kt]⟩, ⟨"KP", [.num d.data.engine.kp]⟩,
          ⟨"S", [.num d.data.engine.s]⟩, ⟨"C", [.num d.data.engine.c]⟩]) d) ∧
      Dev.Keeps [.data, .arb, .hand] s.dev d ∧ d.data = { s.dev.data with engine := d.data.engine } ∧
      d.data.engine =
        ⟨f.w.getD s.dev.data.engine.w, f.kt.getD s.dev.data.engine.kt, f.kp.getD s.dev.data.engine.kp,
          f.s.getD s.dev.data.engine.s, f.c.getD s.dev.data.engine.c⟩ ∧
      d.arb = { s.dev.arb with srcs := d.arb.srcs } ∧
      ∀ x, d.arb.srcs.get x =
        { s.dev.arb.srcs.get x with claims := min d.data.engine.c (s.dev.arb.srcs.get x).claims }) ∧
    (∀ (x : Src) (f : SrcFields), f.ok x = true → ∃ fs d,
      exec (.srcSet tag x f) s = .next (s.replied tag (.ok fs) d) ∧ Dev.Keeps [.data, .handovers, .hand] s.dev d ∧
      d.data = { s.dev.data with srcs := d.data.srcs } ∧
      (let old := s.dev.data.srcs.get x
       let new := d.data.srcs.get x
       new.edge = f.edge.or old.edge ∧ new.debounce = f.debounce.getD old.debounce ∧
         new.name = f.name.getD old.name ∧
         (∀ c, f.camera = some (.cam c) → new.camera = some c) ∧ (f.camera = some .none → new.camera = none) ∧
         (f.camera = none → new.camera = old.camera) ∧ new.rank = f.rank.getD old.rank ∧
         (∀ y, y ≠ x → d.data.srcs.get y =
           { s.dev.data.srcs.get y with
             rank := if f.rank = some (s.dev.data.srcs.get y).rank then old.rank else (s.dev.data.srcs.get y).rank }) ∧
         (let own : List Fld := [⟨"", [.word x.word]⟩, ⟨"RANK", [.num new.rank]⟩]
          ((∀ y, y ≠ x → f.rank ≠ some (s.dev.data.srcs.get y).rank) → fs = own) ∧
          ((∀ y z, y ≠ z → (s.dev.data.srcs.get y).rank ≠ (s.dev.data.srcs.get z).rank) →
            ∀ y, y ≠ x → f.rank = some (s.dev.data.srcs.get y).rank →
              fs = own ++ [⟨"", [.word y.word]⟩, ⟨"RANK", [.num old.rank]⟩])) ∧
         d.handovers = s.dev.handovers ++
           (if s.dev.arb.holder = some x ∧ (new.camera ≠ old.camera ∨ new.name ≠ old.name) then
             [.focusHandoverVideo (some ⟨x, new.camera, new.name⟩)]
           else [])) ∧
      ((∀ y z, y ≠ z → (s.dev.data.srcs.get y).rank ≠ (s.dev.data.srcs.get z).rank) →
        ∀ y z, y ≠ z → (d.data.srcs.get y).rank ≠ (d.data.srcs.get z).rank))

/-- O18. With N reached in RUN, BEAT_DUE emits the next beat of the score at N, with its entry change, its window
close, and the hold or the next due time. Cites 02 R19, 02 R20, 02 R22, 02 R24, 02 R21, 02 R29, 02 R31, 02 R34,
01 R9. The model's choices in it: log 10 (beat serial numbers and the flags of a close); log 23 (a time is
reached when the clock is at or past it). -/
def Obligations.BeatOfTheScoreIsEmittedWhenDue : Prop :=
  (∀ (form : List FormEntry) (g : Engine) (q : Pos) (i : Nat) (f : FormEntry), formOk form →
    g.st = .run ∨ g.st = .hold .point → g.pos = some q → g.entry = some i → entryAt form i = some f →
    f.first ≤ q.bar → q.bar ≤ f.last → q.beat ≤ f.meter →
    let final : Prop := q.bar = f.last ∧ q.beat = f.meter
    (q.beat < f.meter → coming form g = some (.beat ⟨q.bar, q.beat + 1⟩ i)) ∧
    (q.beat = f.meter → q.bar < f.last → coming form g = some (.beat ⟨q.bar + 1, 1⟩ i)) ∧
    (final → f.vamp.isSome = true → g.rel ≠ .armed → coming form g = some (.loop ⟨f.first, 1⟩)) ∧
    (final → f.vamp = none → f.actEnd = true → coming form g = some .actEnd) ∧
    (final → (f.vamp.isSome = true ∧ g.rel = .armed) ∨ (f.vamp = none ∧ f.actEnd = false) →
      (∀ j e, entryAt form j = some e → e.first ≤ q.bar + 1 → q.bar + 1 ≤ e.last →
        coming form g = some (.beat ⟨q.bar + 1, 1⟩ j)) ∧
      ((∀ e ∈ form, ¬ (e.first ≤ q.bar + 1 ∧ q.bar + 1 ≤ e.last)) → coming form g = some .actEnd))) ∧
  ∀ (s : State) (t : Time) (p : Pos) (j : Nat) (e : FormEntry),
    let g := s.dev.eng
    let change : Prop := g.entry ≠ some j
    g.st = .run → g.due = some t → t ≤ s.dev.clock → coming s.dev.data.form g = some (.beat p j) →
    entryAt s.dev.data.form j = some e →
    ∃ (d : Dev) (m : BeatMark),
      exec .beatDue s = .next (s.ended d) ∧ Dev.Keeps [.eng, .handovers, .notices] s.dev d ∧
      Dev.Raised (if change ∧ g.pass ≠ 0 then [.vamp (.leave g.pass)] else []) s.dev d ∧
      (¬ change → m.period = g.period) ∧
      (∀ n, change → e.policy = .nominal → e.nominal = some n → m.period = n) ∧
      (change → e.policy = .keep → m.period = e.clampPeriod g.period) ∧
      m.time = t ∧ m.pos = p ∧ m.kind = (if p.beat = 1 then .downbeat else .beat) ∧ m.entry = j ∧ m.count = none ∧
      m.pass = (if change then (if e.vamp.isSome then 1 else 0) else g.pass) ∧ (m.hold = true ↔ p ∈ e.holds) ∧
      d.eng =
        { g with
          st := if m.hold then .hold .point else .run
          period := m.period
          due := if m.hold then none else some (t + m.period)
          last := some t
          pos := some p
          entry := some j
          pass := m.pass
          rel := if change then .none else g.rel
          counter := 0
          matchedL := false
          matchedPrev := g.matchedL
          window := m.period * s.dev.data.engine.w / 64
          beatNo := g.beatNo + 1
          closes := g.closes ++
            [⟨⟨g.beatNo + 1, p⟩, t + m.period * s.dev.data.engine.w / 64, e.mode == .follow, false⟩] } ∧
      d.handovers = s.dev.handovers ++ [.beatMarkCue m, .beatMarkClick m, .beatMarkVideo m, .beatMarkPort m]

/-- O19. What BEAT_DUE emits beside a beat of the score: the next count beat, the armed mark's beat, the loop of a
vamp, or the act end. Cites 02 R20, 02 R24, 02 R29, 02 R36, 02 R37, 02 R38, 02 R40, 02 R41. The model's choices
in it: log 4 (an event commanded outside its condition changes nothing of its own); log 10 (beat serial numbers
and the flags of a close); log 13 (what reaching the act end reports and raises); log 23 (a time is reached when
the clock is at or past it). -/
def Obligations.CountBeatsMarkBeatLoopAndActEnd : Prop :=
  ∀ s : State,
    let g := s.dev.eng
    let form := s.dev.data.form
    ((g.st = .idle ∨ (∃ k, g.st = .hold k) ∨ g.due = none ∨ (∃ t, g.due = some t ∧ s.dev.clock < t)) →
      exec .beatDue s = .next (s.ended s.dev)) ∧
    ∀ t, g.due = some t → t ≤ s.dev.clock →
    let emitted (p : Pos) (e : FormEntry) : Engine :=
      { g with
        last := some t
        pos := some p
        matchedL := false
        matchedPrev := g.matchedL
        window := g.period * s.dev.data.engine.w / 64
        beatNo := g.beatNo + 1
        closes := g.closes ++
          [⟨⟨g.beatNo + 1, p⟩, t + g.period * s.dev.data.engine.w / 64, e.mode == .follow, false⟩] }
    (∀ c e, g.st = .count → 0 < g.counter → g.counter ≤ c.bars * c.meter → 0 < c.meter → g.prepared = some c →
      entryAt form c.entry = some e →
      ∃ (d : Dev) (m : BeatMark), exec .beatDue s = .next (s.ended d) ∧ Dev.Keeps [.eng, .handovers] s.dev d ∧
        m = ⟨t, c.pos, if (c.bars * c.meter - g.counter) % c.meter = 0 then .countDown else .count, g.period, c.entry, 0,
          false, some (c.bars * c.meter - g.counter + 1)⟩ ∧
        d.eng = { emitted c.pos e with
          due := some (t + g.period)
          entry := some c.entry
          pass := 0
          counter := g.counter - 1 } ∧
        d.handovers = s.dev.handovers ++ [.beatMarkCue m, .beatMarkClick m, .beatMarkVideo m, .beatMarkPort m]) ∧
    (∀ c e, g.st = .count → g.counter = 0 → g.prepared = some c → entryAt form c.entry = some e →
      let hold := decide (c.pos ∈ e.holds)
      let pass := if e.vamp.isSome then 1 else 0
      ∃ (d : Dev) (m : BeatMark), exec .beatDue s = .next (s.ended d) ∧ Dev.Keeps [.eng, .handovers] s.dev d ∧
        m = ⟨t, c.pos, if c.pos.beat = 1 then .downbeat else .beat, g.period, c.entry, pass, hold, none⟩ ∧
        d.eng = { emitted c.pos e with
          st := if hold then .hold .point else .run
          due := if hold then none else some (t + g.period)
          entry := some c.entry
          pass := pass
          counter := 0 } ∧
        d.handovers = s.dev.handovers ++
          [.beatMarkCue m, .beatMarkClick m, .beatMarkVideo m, .beatMarkPort m, .markBeat]) ∧
    (∀ i e p, g.st = .run → g.entry = some i → entryAt form i = some e → g.pos = some p → p.bar = e.last →
      p.beat = e.meter → e.vamp.isSome = true → g.rel ≠ .armed →
      let pass := min 65535 (g.pass + 1)
      let rel : Release := if g.rel = .deferred then .armed else .none
      ∃ (d : Dev) (m : BeatMark), exec .beatDue s = .next (s.ended d) ∧ Dev.Keeps [.eng, .handovers, .notices] s.dev d ∧
        m = ⟨t, ⟨e.first, 1⟩, .downbeat, g.period, i, pass, false, none⟩ ∧
        d.eng = { emitted ⟨e.first, 1⟩ e with
          due := some (t + g.period)
          pass := pass
          rel := rel
          counter := 0 } ∧
        Dev.Raised [.vamp (.loop pass rel)] s.dev d ∧
        d.handovers = s.dev.handovers ++ [.beatMarkCue m, .beatMarkClick m, .beatMarkVideo m, .beatMarkPort m]) ∧
    (g.st = .run → coming form g = some .actEnd →
      ∃ d : Dev, exec .beatDue s = .next (s.ended d) ∧ Dev.Keeps [.eng, .handovers, .notices] s.dev d ∧
        d.eng =
          { g with
            st := .idle
            due := none
            pass := 0
            rel := .none
            counter := 0
            matchedL := false
            matchedPrev := false
            tm := none
            closes := [] } ∧
        Dev.Raised (if g.pass = 0 then [] else [.vamp (.leave g.pass)]) s.dev d ∧
        d.handovers = s.dev.handovers ++ [.actEnd])

/-- O20. A holder tap in COUNT or RUN is a late match, which moves P and N, an early match of the coming beat, STRAY
or unclassified; IDLE discards it. Cites 02 R20, 02 R22, 02 R23, 02 R24, 02 R25, 02 R26, 02 R27, 02 R29, 02 R34,
02 R37. The model's choices in it: log 10 (beat serial numbers and the flags of a close). -/
def Obligations.MatchMovesTempoAndPhase : Prop :=
  ∀ (d : Dev) (t : Time), (∀ l, d.eng.last = some l → l ≤ t) →
    let g := d.eng
    let set := d.data.engine
    let gain (p : Nat) (prev : Bool) : Int :=
      match prev, g.tm with
      | true, some tm => (p : Int) + Int.tdiv (((t : Int) - tm - p) * set.kt) 16
      | _, _ => p
    let matched (no : Nat) (cs : List Close) : List Close :=
      cs.map fun c => if c.beat.no = no then { c with matched := true } else c
    let playing : Prop := g.st = .run ∨ g.st = .count
    let marks (m : BeatMark) : List Instr := [.beatMarkCue m, .beatMarkClick m, .beatMarkVideo m, .beatMarkPort m]
    let kind (q : Pos) : BeatKind := if q.beat = 1 then .downbeat else .beat
    let emitted (m : BeatMark) (x : FormEntry) : Engine :=
      { g with
        st := if m.hold then .hold .point else .run
        period := m.period
        due := if m.hold then none else some (t + m.period)
        last := some t
        pos := some m.pos
        entry := some m.entry
        pass := m.pass
        counter := 0
        matchedL := false
        matchedPrev := g.matchedL
        window := m.period * set.w / 64
        beatNo := g.beatNo + 1
        closes := g.closes ++ [⟨⟨g.beatNo + 1, m.pos⟩, t + m.period * set.w / 64, x.mode == .follow, false⟩] }
    let late (e : FormEntry) (l : Time) : Prop := e.mode = .follow ∧ g.matchedL = false ∧ t - l ≤ g.window
    let early (n : Time) (e : FormEntry) : Prop := e.mode = .follow ∧ t ≤ n ∧ n - t ≤ g.period * set.w / 64
    (∀ u l, g.last = some l → u < l → d.engineTap u = d.engineTap l) ∧
    (g.st = .idle → d.engineTap t = (d, .discarded)) ∧
    (∀ l i e, playing → g.last = some l → g.entry = some i → entryAt d.data.form i = some e → late e l →
      let p := e.clampPeriod (gain g.period g.matchedPrev).toNat
      let n := l + (t - l) * set.kp / 16 + p
      d.engineTap t =
        (d.setEng
          { g with
            period := p
            due := some (if n ≤ t then t + p else n)
            matchedL := true
            tm := some t
            closes := matched g.beatNo g.closes },
         .matched (g.pos.getD ⟨0, 0⟩))) ∧
    (∀ l i e, playing → g.last = some l → g.entry = some i → entryAt d.data.form i = some e → ¬ late e l →
      (∀ n x q, g.due = some n → comingBeat d.data.form g = some (x, q) → early n x →
        let b := d.emit t false
        let p := x.clampPeriod (gain b.eng.period g.matchedL).toNat
        let due : Option Time := if b.eng.st = .hold .point then none else some (t + p)
        Dev.Keeps [.eng, .handovers, .notices] d b ∧ b.eng.last = some t ∧ b.eng.pos = some q ∧ b.eng.tm = g.tm ∧
        b.eng.matchedPrev = g.matchedL ∧ b.eng.beatNo = g.beatNo + 1 ∧ (g.st = .count → b.eng.period = g.period) ∧
        (∃ m : BeatMark, m.time = t ∧ m.pos = q ∧ m.period = b.eng.period ∧ b.eng.entry = some m.entry ∧
          (m.hold = true ↔ b.eng.st = .hold .point) ∧
          b.handovers = d.handovers ++ [.beatMarkCue m, .beatMarkClick m, .beatMarkVideo m, .beatMarkPort m] ++
            (if g.st = .count ∧ g.counter = 0 then [.markBeat] else [])) ∧
        (∀ j, g.st = .run → coming d.data.form g = some (.beat q j) →
          let change : Prop := g.entry ≠ some j
          ∃ m : BeatMark, m.time = t ∧ m.pos = q ∧ m.kind = kind q ∧ m.entry = j ∧ m.count = none ∧
            m.pass = (if change then (if x.vamp.isSome then 1 else 0) else g.pass) ∧ (m.hold = true ↔ q ∈ x.holds) ∧
            (¬ change → m.period = g.period) ∧
            (∀ u, change → x.policy = .nominal → x.nominal = some u → m.period = u) ∧
            (change → x.policy = .keep → m.period = x.clampPeriod g.period) ∧
            Dev.Raised (if change ∧ g.pass ≠ 0 then [.vamp (.leave g.pass)] else []) d b ∧
            b.eng = { emitted m x with rel := if change then .none else g.rel } ∧ b.handovers = d.handovers ++ marks m) ∧
        (g.st = .run → coming d.data.form g = some (.loop q) →
          let pass := min 65535 (g.pass + 1)
          let rel : Release := if g.rel = .deferred then .armed else .none
          let m : BeatMark := ⟨t, q, kind q, g.period, i, pass, false, none⟩
          Dev.Raised [.vamp (.loop pass rel)] d b ∧ b.eng = { emitted m x with rel := rel } ∧
            b.handovers = d.handovers ++ marks m) ∧
        (∀ c, g.st = .count → g.prepared = some c → 0 < g.counter → g.counter ≤ c.bars * c.meter → 0 < c.meter →
          let k := c.bars * c.meter - g.counter
          let m : BeatMark := ⟨t, q, if k % c.meter = 0 then .countDown else .count, g.period, c.entry, 0, false, some (k + 1)⟩
          Dev.Raised [] d b ∧ b.eng = { emitted m x with st := .count, counter := g.counter - 1 } ∧
            b.handovers = d.handovers ++ marks m) ∧
        (∀ c, g.st = .count → g.prepared = some c → g.counter = 0 →
          let m : BeatMark := ⟨t, q, kind q, g.period, c.entry, if x.vamp.isSome then 1 else 0, decide (q ∈ x.holds), none⟩
          Dev.Raised [] d b ∧ b.eng = emitted m x ∧ b.handovers = d.handovers ++ marks m ++ [.markBeat]) ∧
        d.engineTap t =
          (b.setEng
            { b.eng with
              period := p
              due := due
              matchedL := true
              tm := some t
              closes := matched b.eng.beatNo b.eng.closes },
           .matched q)) ∧
      ((∀ n x, g.due = some n → (comingBeat d.data.form g).map Prod.fst = some x → ¬ early n x) →
        d.engineTap t = (d, if e.mode = .follow then .stray else .unclassified)))

/-- O21. A tap line's selected edge is accepted outside the debounce time and goes on as a tap, is a bounce inside
it, and an edge not selected does nothing. Cites R47. -/
def Obligations.TapsPassTheFrontEnd : Prop :=
  ∀ (k : Fin 4) (dir : EdgeDir) (s : State),
    let x := Src.ofLine k
    let set := s.dev.data.srcs.get x
    let run := s.dev.arb.srcs.get x
    let selected : Prop :=
      (set.edge = some .rise ∧ dir = .rising) ∨ (set.edge = some .fall ∧ dir = .falling) ∨ set.edge = some .both
    let outside : Prop := ∀ u, run.lastTap = some u → u + set.debounce * 1000 ≤ s.dev.clock
    (¬ selected → exec (.tapLineEdge k dir) s = .next (s.ended s.dev)) ∧
    (selected → outside →
      exec (.tapLineEdge k dir) s = .next (s.ended
        ((s.dev.setArb { s.dev.arb with
          srcs := s.dev.arb.srcs.set x { run with taps := min 65535 (run.taps + 1), lastTap := some s.dev.clock } }).routeTap
            x s.dev.clock))) ∧
    (selected → ¬ outside →
      exec (.tapLineEdge k dir) s = .next (s.ended
        (s.dev.setArb { s.dev.arb with
          srcs := s.dev.arb.srcs.set x { run with bounces := min 65535 (run.bounces + 1) } })))

/-- O22. A TAP request is a tap of PORTTAP at its line's time, answered ACCEPTED or BOUNCE; with no holder, a tap in
an open window takes focus with a FOCUS notice RACE. Cites 03 R48, 03 R49, 03 R50, 03 R57, 02 R30. The model's
choices in it: log 10 (beat serial numbers and the flags of a close); log 26 (the order of notices, of slots and
of equal times inside one command). -/
def Obligations.TapRequestAndFirstTap : Prop :=
  (∀ (tag : Nat) (t : Time) (s : State), t < 281474976710656 →
    let i : Instr := .tap tag t
    let d := s.dev.takeRequest i
    let run := s.dev.arb.srcs.port
    let outside : Prop := ∀ u, run.lastTap = some u → u + s.dev.data.srcs.port.debounce * 1000 ≤ t
    (outside → exec i s = .next (s.replied tag (.ok [⟨"", [.word "ACCEPTED"]⟩, ⟨"", [.num t]⟩])
      ((d.setArb { s.dev.arb with srcs := { s.dev.arb.srcs with
        port := { run with taps := min 65535 (run.taps + 1), lastTap := some t } } }).routeTap .port t))) ∧
    (¬ outside → exec i s = .next (s.replied tag (.ok [⟨"", [.word "BOUNCE"]⟩, ⟨"", [.num t]⟩])
      (d.setArb { s.dev.arb with srcs := { s.dev.arb.srcs with
        port := { run with bounces := min 65535 (run.bounces + 1) } } })))) ∧
  (∀ (d : Dev) (t0 : Time),
    let g := d.eng
    let form := d.data.form
    let t := max t0 (g.last.getD 0)
    let late : Prop := (∃ l, g.last = some l ∧ t - l ≤ g.window) ∧
      ∃ i e, g.entry = some i ∧ entryAt form i = some e ∧ e.mode = .follow
    let early (e : FormEntry) (p : Pos) : Prop :=
      (∃ n, g.due = some n ∧ t ≤ n ∧ n - t ≤ g.period * d.data.engine.w / 64) ∧ e.mode = .follow ∧
      ((g.st = .count ∧ ∃ c, g.prepared = some c ∧ entryAt form c.entry = some e ∧ p = c.pos) ∨
        (g.st = .run ∧ ∃ j, coming form g = some (.beat p j) ∧ entryAt form j = some e) ∨
        (g.st = .run ∧ coming form g = some (.loop p) ∧ ∃ i, g.entry = some i ∧ entryAt form i = some e))
    (g.st = .idle ∨ g.st = .hold .mark → d.openWindow t0 = none) ∧
    (g.st ≠ .idle → g.st ≠ .hold .mark →
      (late → d.openWindow t0 = some ⟨g.beatNo, g.pos.getD ⟨0, 0⟩⟩) ∧
      (¬ late → (∀ e p, early e p → d.openWindow t0 = some ⟨g.beatNo + 1, p⟩) ∧
        ((∀ e p, ¬ early e p) → d.openWindow t0 = none)))) ∧
  (∀ (x : Src) (t : Time) (d : Dev), d.arb.focus = none →
    let r := d.arb.srcs.get x
    let follow : Prop := ∃ i e, d.eng.entry = some i ∧ entryAt d.data.form i = some e ∧ e.mode = .follow
    (d.openWindow t = none → (d.eng.st = .count ∨ d.eng.st = .run) → follow →
      d.routeTap x t =
        (d.setArb { d.arb with srcs := d.arb.srcs.set x { r with strays := min 65535 (r.strays + 1) } }).raise
          (.tap x .stray t)) ∧
    (d.openWindow t = none →
      d.eng.st = .idle ∨ ((d.eng.st = .count ∨ d.eng.st = .run) ∧ ¬ follow) ∨
        ((∃ k, d.eng.st = .hold k) ∧ d.arb.pin = true) →
      d.routeTap x t = d.raise (.tap x .ignored t)) ∧
    (∀ b, d.openWindow t = some b →
      let given : Dev :=
        { d with
          arb := { d.arb with
            srcs := d.arb.srcs.set x { r with claims := 0, claimBeat := none, claimTap := none }
            focus := some ⟨x, .active⟩
            misses := 0 }
          eng := { d.eng with
            matchedL := false
            matchedPrev := false
            tm := none
            closes := d.eng.closes.map fun c => { c with matched := false } }
          handovers := d.handovers ++
            [.focusHandoverVideo (some ⟨x, (d.data.srcs.get x).camera, (d.data.srcs.get x).name⟩)] }
      let taken := given.engineTap t
      (∃ p, taken.2 = .matched p) ∧ taken.1.arb = given.arb ∧
      d.routeTap x t = taken.1.raiseAll
        [.focus .race (some x) none (some .active) d.arb.pin d.clock, .tap x (.take .race) t] ∧
      ∃ e : Dev, e = d.routeTap x t ∧ Dev.Keeps [.eng, .arb, .notices, .handovers] d e ∧ e.arb = given.arb))

/-- O23. A vamp release sets NONE to DEFERRED within the warn bars and to ARMED before them, stands otherwise, and
is refused or noticed outside a vamp. Cites 02 R35, 02 R37, 10 R169. -/
def Obligations.VampReleaseFromPortAndStation : Prop :=
  ∀ s : State,
    let g := s.dev.eng
    let bar : Nat → Prop := fun b =>
      ((g.st = .run ∨ g.st = .hold .point) ∧ ∃ p, g.pos = some p ∧ p.bar = b) ∨
        ((g.st = .count ∨ g.st = .hold .mark) ∧ ∃ c, g.prepared = some c ∧ c.pos.bar = b)
    let inVamp : FormEntry → Nat → Prop := fun e w =>
      g.st ≠ .idle ∧ e.vamp = some w ∧
        ∃ i, (if g.st = .hold .mark then g.prepared.map Prepared.entry else g.entry) = some i ∧
          entryAt s.dev.data.form i = some e
    (∀ e w b, inVamp e w → bar b → g.rel = .none →
      let rel : Release := if e.last - b + 1 ≤ w then .deferred else .armed
      (∀ tag, ∃ d, exec (.vampOut tag) s = .next (s.replied tag (.ok [⟨"", [.word rel.word]⟩]) d) ∧
        Dev.Keeps [.eng, .notices, .hand] s.dev d ∧ d.eng = { g with rel := rel } ∧
        Dev.Raised [.vamp (.release rel g.pass b)] s.dev d) ∧
      (∀ n, ∃ d, exec (.vampoutReport n) s = .next (s.ended d) ∧
        Dev.Keeps [.eng, .notices, .handovers] s.dev d ∧ d.eng = { g with rel := rel } ∧
        d.handovers = s.dev.handovers.erase (.vampoutReport n) ∧
        Dev.Raised [.vamp (.release rel g.pass b)] s.dev d)) ∧
    (∀ e w, inVamp e w → g.rel ≠ .none →
      (∀ tag, exec (.vampOut tag) s =
        .next (s.replied tag (.ok [⟨"", [.word g.rel.word]⟩]) (s.dev.takeRequest (.vampOut tag)))) ∧
      (∀ n, exec (.vampoutReport n) s = .next (s.ended (s.dev.take (.vampoutReport n))))) ∧
    ((∀ e w, ¬ inVamp e w) →
      (∀ tag, exec (.vampOut tag) s = .next (s.replied tag (.no .notVamp) (s.dev.takeRequest (.vampOut tag)))) ∧
      (∀ n, exec (.vampoutReport n) s =
        .next (s.ended ((s.dev.take (.vampoutReport n)).raise (.vamp (.ignored n))))))

/-- O24. A holder tap in a hold is a late match of the hold beat or releases to the next beat or the act end at its
time, matched; a GO release is not matched. Cites 02 R24, 02 R26, 02 R31, 02 R32, 02 R33, 02 R38, 02 R42. The
model's choices in it: log 10 (beat serial numbers and the flags of a close); log 13 (what reaching the act end
reports and raises). -/
def Obligations.HoldsAreReleasedOrLateMatched : Prop :=
  ∀ (d : Dev) (t : Time), (∀ l, d.eng.last = some l → l ≤ t) →
    let g := d.eng
    let form := d.data.form
    let w := d.data.engine.w
    let gain : Int :=
      match g.matchedPrev, g.tm with
      | true, some tm => (g.period : Int) + Int.tdiv (((t : Int) - tm - g.period) * d.data.engine.kt) 16
      | _, _ => g.period
    let matched (e : Engine) : Engine :=
      { e with
        matchedL := true
        tm := some t
        closes := e.closes.map fun c => if c.beat.no = e.beatNo then { c with matched := true } else c }
    let late (i : Nat) (e : FormEntry) : Prop :=
      g.entry = some i ∧ entryAt form i = some e ∧ e.mode = .follow ∧ g.matchedL = false ∧
        ∃ l, g.last = some l ∧ t - l ≤ g.window
    let emitted (m : BeatMark) (e : FormEntry) (rel : Release) : Engine :=
      { g with
        st := if m.hold then .hold .point else .run
        period := m.period
        due := if m.hold then none else some (t + m.period)
        last := some t
        pos := some m.pos
        entry := some m.entry
        pass := m.pass
        rel := rel
        counter := 0
        matchedL := false
        matchedPrev := false
        window := m.period * w / 64
        beatNo := g.beatNo + 1
        closes := g.closes ++
          [⟨⟨g.beatNo + 1, m.pos⟩, t + m.period * w / 64, e.mode == .follow, false⟩] }
    let r := d.goRelease t
    let marks (m : BeatMark) : List Instr := [.beatMarkCue m, .beatMarkClick m, .beatMarkVideo m, .beatMarkPort m]
    (∀ i e, g.st = .hold .point → late i e →
      d.engineTap t =
        (d.setEng (matched { g with period := e.clampPeriod gain.toNat }), .matched (g.pos.getD ⟨0, 0⟩))) ∧
    (∀ q j e, g.st = .hold .point → coming form g = some (.beat q j) → entryAt form j = some e →
      let change : Prop := g.entry ≠ some j
      ∃ m : BeatMark, m.time = t ∧ m.pos = q ∧ m.kind = (if q.beat = 1 then .downbeat else .beat) ∧ m.entry = j ∧
        m.count = none ∧ m.pass = (if change then (if e.vamp.isSome then 1 else 0) else g.pass) ∧
        (m.hold = true ↔ q ∈ e.holds) ∧
        (¬ change → m.period = g.period) ∧
        (∀ n, change → e.policy = .nominal → e.nominal = some n → m.period = n) ∧
        (change → e.policy = .keep → m.period = e.clampPeriod g.period) ∧
        Dev.Keeps [.eng, .handovers, .notices] d r ∧
        Dev.Raised (if change ∧ g.pass ≠ 0 then [.vamp (.leave g.pass)] else []) d r ∧
        r.eng = emitted m e (if change then .none else g.rel) ∧ r.handovers = d.handovers ++ marks m ∧
        ((∀ i x, ¬ late i x) → d.engineTap t = (r.setEng (matched r.eng), .matched q))) ∧
    (g.st = .hold .point → coming form g = some .actEnd →
      Dev.Keeps [.eng, .handovers, .notices] d r ∧
      Dev.Raised (if g.pass = 0 then [] else [.vamp (.leave g.pass)]) d r ∧
      r.eng =
        { g with
          st := .idle
          due := none
          pass := 0
          rel := .none
          counter := 0
          matchedL := false
          matchedPrev := false
          tm := none
          closes := [] } ∧
      r.handovers = d.handovers ++ [.actEnd] ∧
      ((∀ i x, ¬ late i x) → d.engineTap t = (r, .matched (g.pos.getD ⟨0, 0⟩)))) ∧
    (∀ c e, g.st = .hold .mark → g.prepared = some c → entryAt form c.entry = some e →
      ∃ m : BeatMark, m.time = t ∧ m.pos = c.pos ∧ m.kind = (if c.pos.beat = 1 then .downbeat else .beat) ∧
        m.entry = c.entry ∧ m.count = none ∧ m.pass = (if e.vamp.isSome then 1 else 0) ∧
        m.hold = decide (c.pos ∈ e.holds) ∧ m.period = g.period ∧
        Dev.Keeps [.eng, .handovers] d r ∧ r.eng = emitted m e g.rel ∧
        r.handovers = d.handovers ++ marks m ++ [.markBeat] ∧
        d.engineTap t = (r.setEng (matched r.eng), .matched c.pos))

/-- O25. A rival tap in an open window is a claim tap, a second one in that window or one outside is a stray, and a
complete claim takes focus or stands. Cites 02 R30, 03 R49, 03 R50, 03 R54, 03 R55, 03 R61. The model's choices
in it: log 10 (beat serial numbers and the flags of a close); log 11 (a rival tap in a POINT hold that the rules
name differently); log 26 (the order of notices, of slots and of equal times inside one command); log 40 (the
position a claim against a coming beat keeps). -/
def Obligations.ClaimTapsCountStandAndTakeFocus : Prop :=
  ∀ (x : Src) (t : Time) (f : Focus) (d : Dev), d.arb.focus = some f → f.src ≠ x →
    ¬ ((∃ k, d.eng.st = .hold k) ∧ f.status = .lapsed ∧ d.arb.pin = false) →
    let r := d.arb.srcs.get x
    let c := d.data.engine.c
    let n := min c (r.claims + 1)
    let better : Prop := f.status = .lapsed ∨ (d.data.srcs.get x).rank < (d.data.srcs.get f.src).rank
    let stray : Dev := d.setArb { d.arb with srcs := d.arb.srcs.set x { r with strays := min 65535 (r.strays + 1) } }
    let follow : Prop := ∃ i e, d.eng.entry = some i ∧ entryAt d.data.form i = some e ∧ e.mode = .follow
    let outside : Prop := d.openWindow t = none ∧
      (d.eng.st = .hold .point ∨ ((d.eng.st = .count ∨ d.eng.st = .run) ∧ d.arb.pin = false ∧ follow))
    (∀ b, d.openWindow t = some b → d.arb.pin = false →
      ((∃ v, r.claimBeat = some v ∧ v.no = b.no) → d.routeTap x t = stray.raise (.tap x .stray t)) ∧
      ((∀ v, r.claimBeat = some v → v.no ≠ b.no) →
        (n < c ∨ ¬ better →
          d.routeTap x t =
            (d.setArb { d.arb with
              srcs := d.arb.srcs.set x { r with claims := n, claimBeat := some b, claimTap := some t } }).raise
              (.tap x (.claim n) t)) ∧
        (n = c → better →
          let gone : Engine := { d.eng with
            matchedL := false
            matchedPrev := false
            tm := none
            closes := d.eng.closes.map fun v => { v with matched := false } }
          let marked (no : Nat) : List Close :=
            gone.closes.map fun v => if v.beat.no = no then { v with matched := true } else v
          let entered : Engine :=
            match r.claimTap, r.claimBeat with
            | some u, some v =>
              if c < 2 then gone
              else if v.no = d.eng.beatNo then { gone with matchedL := true, tm := some u, closes := marked v.no }
              else if v.no + 1 = d.eng.beatNo then
                { gone with matchedPrev := true, tm := some u, closes := marked v.no }
              else gone
            | _, _ => gone
          let given : Dev :=
            { d with
              arb := { d.arb with
                srcs := d.arb.srcs.set x { r with claims := 0, claimBeat := none, claimTap := none }
                focus := some ⟨x, .active⟩
                misses := 0 }
              eng := entered
              handovers := d.handovers ++
                [.focusHandoverVideo (some ⟨x, (d.data.srcs.get x).camera, (d.data.srcs.get x).name⟩)] }
          let taken := given.engineTap t
          (∃ p, taken.2 = .matched p) ∧ taken.1.arb = given.arb ∧
          Dev.Keeps [.eng, .arb, .notices, .handovers] d (d.routeTap x t) ∧
          d.routeTap x t = taken.1.raiseAll
            [.focus .claim (some x) (some f.src) (some .active) false d.clock, .tap x (.take .claim) t]))) ∧
    (outside → d.routeTap x t = stray.raise (.tap x .stray t)) ∧
    (¬ outside → d.openWindow t = none ∨ d.arb.pin = true → d.routeTap x t = d.raise (.tap x .ignored t))

/-- O26. In a hold with the pin clear a tap takes focus from a LAPSED holder or with no holder; the holder's taps
count by the engine's report. Cites 02 R30, 03 R49, 03 R51, 03 R57, 03 R58, 03 R61. The model's choices in it:
log 10 (beat serial numbers and the flags of a close); log 11 (a rival tap in a POINT hold that the rules name
differently); log 26 (the order of notices, of slots and of equal times inside one command). -/
def Obligations.ReleaseTapsRacesInHoldsAndReports : Prop :=
  (∀ (x : Src) (t : Time) (k : HoldKind) (cause : FocusCause) (d : Dev), d.eng.st = .hold k → d.arb.pin = false →
    ((d.arb.focus = none ∧ cause = .race) ∨
      (∃ f, d.arb.focus = some f ∧ f.src ≠ x ∧ f.status = .lapsed ∧ cause = .release)) →
    let given : Dev :=
      { d with
        arb := { d.arb with
          srcs := d.arb.srcs.set x { d.arb.srcs.get x with claims := 0, claimBeat := none, claimTap := none }
          focus := some ⟨x, .active⟩
          misses := 0 }
        eng := { d.eng with
          matchedL := false
          matchedPrev := false
          tm := none
          closes := d.eng.closes.map fun c => { c with matched := false } }
        handovers := d.handovers ++
          [.focusHandoverVideo (some ⟨x, (d.data.srcs.get x).camera, (d.data.srcs.get x).name⟩)] }
    let taken := given.engineTap t
    (∃ p, taken.2 = .matched p) ∧ taken.1.arb = given.arb ∧
    Dev.Keeps [.eng, .arb, .notices, .handovers] d (d.routeTap x t) ∧
    d.routeTap x t = taken.1.raiseAll
      [.focus cause (some x) (d.arb.focus.map Focus.src) (some .active) false d.clock, .tap x (.take cause) t]) ∧
  (∀ (t : Time) (f : Focus) (d : Dev), d.arb.focus = some f →
    let x := f.src
    let heard := (d.engineTap t).1
    (∀ p, (d.engineTap t).2 = .matched p →
      (f.status = .active →
        d.routeTap x t = (heard.setArb { d.arb with misses := 0 }).raise (.tap x (.matched p) t)) ∧
      (f.status = .lapsed →
        d.routeTap x t = (heard.setArb { d.arb with misses := 0, focus := some ⟨x, .active⟩ }).raiseAll
          [.focus .recover (some x) (some x) (some .active) d.arb.pin d.clock, .tap x (.matched p) t])) ∧
    ((d.engineTap t).2 = .stray →
      d.routeTap x t =
        (heard.setArb { d.arb with
          srcs := d.arb.srcs.set x { d.arb.srcs.get x with strays := min 65535 ((d.arb.srcs.get x).strays + 1) } }).raise
          (.tap x .stray t)) ∧
    ((d.engineTap t).2 = .unclassified → d.routeTap x t = heard.raise (.tap x .unclassified t)) ∧
    ((d.engineTap t).2 = .discarded → d.routeTap x t = heard.raise (.tap x .ignored t)))

/-- O27. WINDOW_CLOSE counts a miss of the holder, lapses it at the silence limit with a FOCUS notice LAPSE, and
ends the claims that missed the beat. Cites 02 R29, 03 R52, 03 R53, 03 R61. The model's choices in it: log 4 (an
event commanded outside its condition changes nothing of its own); log 10 (beat serial numbers and the flags of
a close); log 23 (a time is reached when the clock is at or past it); log 26 (the order of notices, of slots and
of equal times inside one command). -/
def Obligations.WindowCloseCountsMissesAndEndsClaims : Prop :=
  ∀ s : State,
    let a := s.dev.arb
    (s.dev.eng.closes.all (fun c => decide (s.dev.clock < c.due)) = true → exec .windowClose s = .next (s.ended s.dev)) ∧
    (∀ l c r, s.dev.eng.closes = l ++ c :: r → (∀ x ∈ l, c.due < x.due) → (∀ x ∈ r, c.due ≤ x.due) → c.due ≤ s.dev.clock →
      let missed : Prop := c.follow = true ∧ c.matched = false ∧ a.focus.isSome = true
      let misses := min 255 (a.misses + 1)
      let lapses : Prop := missed ∧ s.dev.data.engine.s ≤ misses ∧ a.focus.map Focus.status = some .active
      ∃ d, exec .windowClose s = .next (s.ended d) ∧ Dev.Keeps [.eng, .arb, .notices] s.dev d ∧
        d.eng = { s.dev.eng with closes := l ++ r } ∧
        d.arb.misses = (if missed then misses else a.misses) ∧ d.arb.pin = a.pin ∧
        (¬ lapses → d.arb.focus = a.focus ∧ Dev.Raised [] s.dev d) ∧
        (lapses → ∀ f, a.focus = some f → d.arb.focus = some ⟨f.src, .lapsed⟩ ∧
          Dev.Raised [.focus .lapse (some f.src) (some f.src) (some .lapsed) a.pin s.dev.clock] s.dev d) ∧
        ∀ x, d.arb.srcs.get x =
          if a.focus.map Focus.src = some x ∨ (∃ b, (a.srcs.get x).claimBeat = some b ∧ c.beat.no ≤ b.no)
          then a.srcs.get x
          else { a.srcs.get x with claims := 0, claimBeat := none, claimTap := none })

/-- O28. FOCUS.PIN makes the source holder and sets the pin; FOCUS.FREE clears the pin; FOCUS.FREE CLEAR also
removes the holder and ends every claim. Cites 03 R49, 03 R59, 03 R61, 02 R30. The model's choices in it: log 10
(beat serial numbers and the flags of a close); log 21 (what ends a claim with the focus). -/
def Obligations.PinAndFreeRequests : Prop :=
  ∀ (tag : Nat) (s : State),
    let a := s.dev.arb
    let holder := a.focus.map Focus.src
    let cleared : Engine := { s.dev.eng with
      matchedL := false
      matchedPrev := false
      tm := none
      closes := s.dev.eng.closes.map fun c => { c with matched := false } }
    (∀ x, ∃ d, exec (.focusPin tag x) s = .next (s.replied tag (.ok [⟨"", [.word x.word]⟩]) d) ∧
      Dev.Keeps [.eng, .arb, .notices, .handovers, .hand] s.dev d ∧ d.arb.pin = true ∧
      (holder = some x → d.eng = s.dev.eng ∧ d.arb = { a with pin := true } ∧ d.handovers = s.dev.handovers) ∧
      (holder ≠ some x → d.eng = cleared ∧ d.arb.focus = some ⟨x, .active⟩ ∧ d.arb.misses = 0 ∧
        d.arb.srcs = a.srcs.set x { a.srcs.get x with claims := 0, claimBeat := none, claimTap := none } ∧
        d.handovers = s.dev.handovers ++ [.focusHandoverVideo (some
          ⟨x, (s.dev.data.srcs.get x).camera, (s.dev.data.srcs.get x).name⟩)]) ∧
      Dev.Raised [.focus .pin (some x) holder (d.arb.focus.map Focus.status) true s.dev.clock] s.dev d) ∧
    (∃ d, exec (.focusFree tag false) s = .next (s.replied tag (.ok []) d) ∧
      Dev.Keeps [.arb, .notices, .hand] s.dev d ∧ d.arb = { a with pin := false } ∧
      Dev.Raised (if a.pin then [.focus .free holder holder (a.focus.map Focus.status) false s.dev.clock] else []) s.dev d) ∧
    (∃ d, exec (.focusFree tag true) s = .next (s.replied tag (.ok []) d) ∧
      Dev.Keeps [.eng, .arb, .notices, .handovers, .hand] s.dev d ∧ d.eng = cleared ∧ d.arb.focus = none ∧
      d.arb.pin = false ∧ d.arb.misses = 0 ∧
      (∀ x, d.arb.srcs.get x = { a.srcs.get x with claims := 0, claimBeat := none, claimTap := none }) ∧
      d.handovers = s.dev.handovers ++ [.focusHandoverVideo none] ∧
      Dev.Raised (if a.pin || a.focus.isSome then [.focus .clear none holder none false s.dev.clock] else []) s.dev d)

/-! ## Rooms and lanes -/

/-- O29. The alignment computation gives a room its click offset, frame delay and short amount by the five cases,
and the room is aligned unless it is SHORT. Cites R64. -/
def Obligations.AlignmentOfARoom : Prop :=
  ∀ (d : Dev) (k : Fin 4),
    let set := d.data.rooms[k]
    let f := d.data.std.frame
    let room := (d.realign k).rooms[k]
    (d.data.std = .hz50 → f = 20000) ∧ (d.data.std = .hz5994 → f = 16683) ∧
    (set.out = none → room = ⟨0, none, 0⟩) ∧
    (set.out ≠ none →
      (set.cr ≤ set.vr → set.vr - set.cr ≤ 100000 → room = ⟨set.vr - set.cr, some 0, 0⟩) ∧
      (set.cr ≤ set.vr → 100000 < set.vr - set.cr → room = ⟨100000, some 0, set.vr - set.cr - 100000⟩) ∧
      (∀ n, set.vr < set.cr → n ≤ 8 → set.cr - set.vr ≤ n * f → (n - 1) * f < set.cr - set.vr →
        room = ⟨set.vr + n * f - set.cr, some n, 0⟩ ∧ room.oc < f ∧ (room.oc = 0 ↔ (set.cr - set.vr) % f = 0)) ∧
      (set.vr < set.cr → 8 * f < set.cr - set.vr → room = ⟨0, some 8, set.cr - set.vr - 8 * f⟩) ∧
      ∃ n, room.dv = some n ∧ n ≤ 8 ∧
        (room.short = 0 → room.oc + set.cr = set.vr + n * f) ∧
        (set.cr ≤ set.vr → room.oc + set.cr + room.short = set.vr + n * f) ∧
        (set.vr < set.cr → room.oc + set.cr = set.vr + n * f + room.short)) ∧
    room.oc ≤ 100000

/-- O30. ROOM.SET writes the fields its line gives, runs the alignment when it must, raises ALIGN on a new short
amount, and leaves a released output its delay. Cites 04 R63, 04 R65, 04 R66, 04 R67. -/
def Obligations.RoomSetWritesAlignsAndReleases : Prop :=
  ∀ (tag : Nat) (r : Fin 4) (f : RoomFields) (s : State), (Instr.roomSet tag r f).rangeOk = true →
    ((∃ o q, f.out = some (.out o) ∧ q ≠ r ∧ s.dev.data.rooms[q].out = some o) →
      exec (.roomSet tag r f) s = .next (s.replied tag (.no .state) (s.dev.takeRequest (.roomSet tag r f)))) ∧
    ((∀ o q, f.out = some (.out o) → q ≠ r → s.dev.data.rooms[q].out ≠ some o) →
      s.dev.store.writing = false ∨ f = ⟨none, none, none, none⟩ →
      ∃ d,
        let old := s.dev.data.rooms[r]
        let new := d.data.rooms[r]
        let run := d.rooms[r]
        let changed : Prop := new.cr ≠ old.cr ∨ new.vr ≠ old.vr ∨ new.out ≠ old.out
        exec (.roomSet tag r f) s = .next (s.replied tag
          (.ok [⟨"", [.num (r.val + 1)]⟩, ⟨"NAME", [.name new.name]⟩, ⟨"CR", [.num new.cr]⟩, ⟨"VR", [.num new.vr]⟩,
            ⟨"OUT", (new.out.map fun o => Val.num (o.val + 1)).toList⟩, ⟨"DV", (run.dv.map Val.num).toList⟩,
            ⟨"OC", [.num run.oc]⟩, ⟨"SHORT", [.num run.short]⟩]) d) ∧
        Dev.Keeps [.data, .rooms, .notices, .hand] s.dev d ∧
        d.data = { s.dev.data with rooms := d.data.rooms, outs := d.data.outs } ∧
        new.cr = f.cr.getD old.cr ∧ new.vr = f.vr.getD old.vr ∧ new.name = f.name.getD old.name ∧
        (f.out = none → new.out = old.out) ∧ (∀ o, f.out = some (.out o) → new.out = some o) ∧
        (f.out = some .none → new.out = none) ∧
        (∀ q, q ≠ r → d.data.rooms[q] = s.dev.data.rooms[q] ∧ d.rooms[q] = s.dev.rooms[q]) ∧
        (changed → run = align new s.dev.data.std.frame) ∧ (¬ changed → run = s.dev.rooms[r]) ∧
        Dev.Raised (if run.short = s.dev.rooms[r].short then [] else [.align r new run]) s.dev d ∧
        ∀ o, d.data.outs[o] =
          if old.out = some o ∧ new.out ≠ some o then
            { s.dev.data.outs[o] with portDelay := s.dev.rooms[r].dv.getD s.dev.data.outs[o].portDelay }
          else s.dev.data.outs[o])

/-- O31. LANE.SET writes the fields its line gives and ends the cue subdivision with a new one; STATION.SET writes
the permission; both reply every field. Cites 04 R68, 04 R69, 07 R130, 07 R135. The model's choices in it: log
15 (the keys no rule shows). -/
def Obligations.LaneSetAndStationSetWriteTheirFields : Prop :=
  (∀ (tag : Nat) (l : Fin 8) (f : LaneFields) (s : State), (Instr.laneSet tag l f).rangeOk = true →
    s.dev.store.writing = false ∨ f = ⟨none, none, none, none, none⟩ →
    let old := s.dev.data.lanes[l]
    let new : LaneSet :=
      ⟨f.room.getD old.room, f.sub.getD old.sub, f.accent.getD old.accent, f.level.getD old.level, f.mute.getD old.mute⟩
    let run : LaneRun :=
      { s.dev.lanes[l] with cueSub := if f.sub.isSome then none else s.dev.lanes[l].cueSub }
    ∃ d, exec (.laneSet tag l f) s = .next (s.replied tag
        (.ok [⟨"", [.num (l.val + 1)]⟩, ⟨"ROOM", [.num (new.room.val + 1)]⟩, ⟨"SUB", [.num new.sub]⟩,
          ⟨"ACCENT", [.word (if new.accent then "ON" else "OFF")]⟩, ⟨"LEVEL", [.num new.level]⟩,
          ⟨"MUTE", [.word new.mute.word]⟩, ⟨"CUEMUTE", [.word run.cueMute.word]⟩,
          ⟨"CUESUB", (run.cueSub.map Val.num).toList⟩, ⟨"EFFSUB", [.num (run.cueSub.getD new.sub)]⟩,
          ⟨"PENDING", [.num run.queue.length]⟩]) d) ∧
      Dev.Keeps [.data, .lanes, .hand] s.dev d ∧
      d.data = { s.dev.data with lanes := s.dev.data.lanes.set l new } ∧ d.lanes = s.dev.lanes.set l run) ∧
  (∀ (tag : Nat) (n : Fin 16) (p : Permission) (s : State), s.dev.store.writing = false →
    let r := s.dev.station n
    ∃ d, exec (.stationSet tag n p) s = .next (s.replied tag
        (.ok [⟨"", [.station n]⟩, ⟨"STATE", [.word r.state.word]⟩, ⟨"FAULTS", [.num r.faults]⟩,
          ⟨"POLLS", [.num r.polls]⟩, ⟨"SLOTS", [.num r.slotCount]⟩, ⟨"VAMPOUT", [.word p.word]⟩,
          ⟨"ERROR", (r.lastError.map fun e => Val.word e.word).toList⟩, ⟨"STALE", [.num r.stale]⟩]) d) ∧
      Dev.Keeps [.data, .hand] s.dev d ∧ d.data = { s.dev.data with perms := s.dev.data.perms.set n p })

/-- O32. A beat mark in COUNT_IN or RUNNING prunes each lane and queues its main click and subdivision clicks in
order of due time; elsewhere it is discarded. Cites 04 R70, 04 R71, 04 R72, 04 R73, 04 R74. The model's choices
in it: log 41 (what a block does before it takes a change of show state). -/
def Obligations.BeatMarkClickPrunesAndQueues : Prop :=
  ∀ (m : BeatMark) (s : State),
    let playing : Prop := s.dev.ctl.state = .countIn ∨ s.dev.ctl.state = .running
    (¬ playing → exec (.beatMarkClick m) s = .next (s.ended (s.dev.take (.beatMarkClick m)))) ∧
    (playing → ∃ d, exec (.beatMarkClick m) s = .next (s.ended d) ∧ Dev.Keeps [.lanes, .handovers] s.dev d ∧
      d.handovers = s.dev.handovers.erase (.beatMarkClick m) ∧
      ∀ l : Fin 8,
        let set := s.dev.data.lanes[l]
        let run := s.dev.lanes[l]
        let oc := s.dev.rooms[set.room].oc
        let n := run.cueSub.getD set.sub
        let loud : Bool := set.accent && (m.kind == .downbeat || m.kind == .countDown)
        let tone : ClickKind :=
          if loud then .accent else if m.kind = .downbeat ∨ m.kind = .beat then .beat else .count
        let main : Click := ⟨m.time + oc, m.time, tone, if loud then set.level else set.level - 2, m.pos⟩
        let sub (j : Nat) : Click :=
          ⟨m.time + j * m.period / n + oc, m.time + j * m.period / n, .sub, set.level - 4, m.pos⟩
        let kept := run.queue.filter fun c => !(c.kind == .sub && decide (m.time ≤ c.engine))
        let new := main :: if m.hold then [] else (List.range (n - 1)).map fun j => sub (j + 1)
        let after := d.lanes[l]
        after.cueMute = run.cueMute ∧ after.cueSub = run.cueSub ∧ after.out = run.out ∧
        (set.mute = .muted ∨ run.cueMute = .muted → after.queue = kept) ∧
        (set.mute = .opened → run.cueMute = .opened → run.queueOk →
          ∀ t, after.queue.filter (fun c => c.due == t) =
            (kept ++ new.take (16 - kept.length)).filter fun c => c.due == t) ∧
        (run.queueOk → after.queueOk))

/-- O33. CLICK_DUE sounds the head click; LANE and NOTE actions set their lane or note; a silent show state empties
the queues; FOCUS outputs are handed the camera. Cites 04 R70, 04 R75, 04 R76, 08 R142, 08 R147. The model's
choices in it: log 4 (an event commanded outside its condition changes nothing of its own); log 31 (which hand-
over sets an output's camera); log 41 (what a block does before it takes a change of show state). -/
def Obligations.LanesAndOutputsTakeTheirHandOvers : Prop :=
  ∀ s : State,
    (∀ l : Fin 8,
      let run := s.dev.lanes[l]
      (∀ c cs, run.queue = c :: cs → c.due ≤ s.dev.clock →
        exec (.clickDue l) s = .next (s.ended { s.dev with
          lanes := s.dev.lanes.set l { run with queue := cs, out := some ⟨s.dev.clock, c⟩ } })) ∧
      ((∀ c cs, run.queue = c :: cs → s.dev.clock < c.due) → exec (.clickDue l) s = .next (s.ended s.dev)) ∧
      ∀ mute sub, exec (.laneAction l mute sub) s = .next (s.ended { s.dev with
        lanes := s.dev.lanes.set l { run with cueMute := mute, cueSub := sub.or run.cueSub }
        handovers := s.dev.handovers.erase (.laneAction l mute sub) })) ∧
    (∀ st : ShowState, ∃ d, exec (.lanesStateChange st) s = .next (s.ended d) ∧
      Dev.Keeps [.lanes, .handovers] s.dev d ∧ d.handovers = s.dev.handovers.erase (.lanesStateChange st) ∧
      (st = .stopped ∨ st = .arming ∨ st = .ready ∨ st = .dark →
        ∀ l : Fin 8, d.lanes[l] = { s.dev.lanes[l] with queue := [] }) ∧
      (st = .countIn ∨ st = .running ∨ st = .done → d.lanes = s.dev.lanes)) ∧
    (∀ n, exec (.noteAction n) s = .next (s.ended { s.dev with
      video := { s.dev.video with note := n }
      handovers := s.dev.handovers.erase (.noteAction n) })) ∧
    (∀ h, ∃ d, exec (.focusHandoverVideo h) s = .next (s.ended d) ∧ Dev.Keeps [.video, .handovers] s.dev d ∧
      d.handovers = s.dev.handovers.erase (.focusHandoverVideo h) ∧
      d.video = { s.dev.video with outs := d.video.outs } ∧
      ∀ o : Fin 6,
        let old := s.dev.video.outs[o]
        (∀ x c name, s.dev.data.outs[o].source = .focus → h = some ⟨x, some c, name⟩ →
          d.video.outs[o] = { old with next := some c }) ∧
        (s.dev.data.outs[o].source ≠ .focus ∨ h = none ∨ (∃ x name, h = some ⟨x, none, name⟩) →
          d.video.outs[o] = old))

/-! ## The cue list and its scheduler -/

/-- O34. CUE.PUT is refused FULL by capacity, or writes the cue in list order, keeps its FIRED stages, marks the
others against the run and raises EDIT notices. Cites 05 R79, 05 R82, 05 R84, 05 R93, 05 R94. The model's
choices in it: log 34 (the points that KEPT and UNPLACED notices carry). -/
def Obligations.CuePutWritesAndMarksACue : Prop :=
  ∀ (tag : Nat) (f : CueFields) (s : State), (Instr.cuePut tag f).rangeOk = true → s.dev.store.writing = false →
    let c : Cue := ⟨f.num, f.pos, f.lead.getD 0, f.actions⟩
    let cues := s.dev.data.cues
    let form := s.dev.data.form
    let sched := s.dev.sched
    let full : Prop := ((∀ y ∈ cues, y.num ≠ c.num) ∧ 1024 ≤ cues.length) ∨
      4096 < poolSize (cues.filter fun y => y.num != c.num) + c.actions.length
    let fired (st : Stage) : Bool := (sched.run c.num).cond st == .fired || sched.deleted.contains ⟨c.num, st⟩
    let where_ : Option Pos := sched.ctx.map fun x => match x.cursor with | some k => k.pos | none => x.mark
    let marked (x : RunCtx) (p : TPos) : Cond :=
      match x.cursor with
      | none => if p.before x.mark.toT then .passed else .unspent
      | some k =>
        if p.toPos = k.pos then
          if p.tick = 0 ∨ k.time + p.tick * k.period / 480 ≤ s.dev.clock then .passed
          else .pending (k.time + p.tick * k.period / 480)
        else if p.before k.pos.toT then .passed else .unspent
    (cues.map Cue.num).Nodup →
    (full → exec (.cuePut tag f) s = .next (s.replied tag (.no .full) (s.dev.takeRequest (.cuePut tag f)))) ∧
    (¬ full → ∃ d,
      exec (.cuePut tag f) s = .next (s.replied tag
        (.ok [⟨"", [.cue c.num]⟩, ⟨"CUES", [.num d.data.cues.length]⟩, ⟨"ACTIONS", [.num (poolSize d.data.cues)]⟩]) d) ∧
      Dev.Keeps [.data, .sched, .notices, .hand] s.dev d ∧ d.data = { s.dev.data with cues := d.data.cues } ∧
      (∀ y, y ∈ d.data.cues ↔ y = c ∨ (y ∈ cues ∧ y.num ≠ c.num)) ∧
      (cues.Pairwise (fun a b => a.before b = true) → d.data.cues.Pairwise fun a b => a.before b = true) ∧
      d.sched.ctx = sched.ctx ∧ d.sched.deleted = sched.deleted.filter (fun x => x.num != c.num) ∧
      (∀ n, n ≠ c.num → d.sched.run n = sched.run n) ∧
      let r := d.sched.run c.num
      let point (st : Stage) : Option TPos := match st with | .send => r.send | .atCue => some c.pos
      let kept : List Notice :=
        (([.send, .atCue] : List Stage).filter fired).map fun st => .edit c.num [st] .kept (point st) where_
      (∀ st, fired st = true → r.cond st = .fired) ∧
      (sched.ctx = none → r.send = none ∧ r.placement = none ∧ (∀ st, fired st = false → r.cond st = .unspent) ∧
        Dev.Raised kept s.dev d) ∧
      (∀ x, sched.ctx = some x → inForm form c.pos.toPos = false →
        r.send = none ∧ r.placement = some .unplaced ∧ (∀ st, fired st = false → r.cond st = .passed) ∧
        Dev.Raised (kept ++ [.edit c.num [.send, .atCue] .unplaced none where_]) s.dev d) ∧
      (∀ x, sched.ctx = some x → inForm form c.pos.toPos = true →
        r.send = some (leadWalk form c.pos c.lead) ∧ r.placement = some .placed ∧
        (∀ st p, fired st = false → point st = some p → r.cond st = marked x p) ∧
        Dev.Raised (kept ++ (([.send, .atCue] : List Stage).filter fun st => r.cond st == .passed).map
          fun st => .edit c.num [st] .passed (point st) where_) s.dev d))

/-- O35. CUE.DEL removes the cue, records its FIRED stages and drops its PENDING ones with an EDIT notice; NOTE.PUT
replaces one note entry whole. Cites 05 R81, 05 R83, 05 R94. -/
def Obligations.CueDelAndNotePut : Prop :=
  ∀ (tag : Nat) (s : State), s.dev.store.writing = false →
    let cues := s.dev.data.cues
    let sched := s.dev.sched
    (∀ n, (Instr.cueDel tag n).rangeOk = true →
      ((∀ c ∈ cues, c.num ≠ n) →
        exec (.cueDel tag n) s = .next (s.replied tag (.no .notFound) (s.dev.takeRequest (.cueDel tag n)))) ∧
      (∀ c, c ∈ cues → c.num = n → (cues.map Cue.num).Nodup →
        let r := sched.run n
        let point (st : Stage) : Option TPos := match st with | .send => r.send | .atCue => some c.pos
        ∃ d, exec (.cueDel tag n) s = .next (s.replied tag (.ok [⟨"", [.num (cues.length - 1)]⟩]) d) ∧
          Dev.Keeps [.data, .sched, .notices, .hand] s.dev d ∧
          d.data = { s.dev.data with cues := cues.filter fun y => y.num != n } ∧
          d.sched.ctx = sched.ctx ∧ d.sched.run n = ⟨n, none, none, .unspent, .unspent⟩ ∧
          (∀ k, k ≠ n → d.sched.run k = sched.run k) ∧
          d.sched.deleted = sched.deleted ++
            ((([.send, .atCue] : List Stage).filter fun st => r.cond st == .fired).map fun st => ⟨n, st⟩) ∧
          Dev.Raised ((([.send, .atCue] : List Stage).filter fun st => (r.cond st).time.isSome).map fun st =>
            .edit n [st] .dropped (point st)
              (sched.ctx.map fun x => match x.cursor with | some k => k.pos | none => x.mark)) s.dev d)) ∧
    (∀ (i : Fin 64) (t : Text), (Instr.notePut tag i t).rangeOk = true →
      ∃ d, exec (.notePut tag i t) s =
          .next (s.replied tag (.ok [⟨"", [.num i.val]⟩, ⟨"LEN", [.num t.length]⟩]) d) ∧
        Dev.Keeps [.data, .hand] s.dev d ∧ d.data = { s.dev.data with notes := d.data.notes } ∧
        d.data.notes[i] = t ∧ ∀ k : Fin 64, k ≠ i → d.data.notes[k] = s.dev.data.notes[k])

/-- O36. CUE.FIRE fires each stage of the cue that is not FIRED, SEND first, hands its actions and the late check
over, and raises a CUE notice FIRE for each. Cites 05 R86, 05 R95, 05 R96. The model's choices in it: log 15
(the keys no rule shows). -/
def Obligations.CueFireFiresWhatIsNotFired : Prop :=
  ∀ (tag n : Nat) (s : State), (Instr.cueFire tag n).rangeOk = true →
    ((∀ c ∈ s.dev.data.cues, c.num ≠ n) →
      exec (.cueFire tag n) s = .next (s.replied tag (.no .notFound) (s.dev.takeRequest (.cueFire tag n)))) ∧
    (∀ c, c ∈ s.dev.data.cues → c.num = n → (s.dev.data.cues.map Cue.num).Nodup →
      let r := s.dev.sched.run n
      let patches := c.actions.filterMap fun a => match a with | .patch p => some p | _ => none
      let others := c.actions.filterMap fun a =>
        match a with
        | .patch _ => none
        | .note i => some (Instr.noteAction i)
        | .lane l m sub => some (Instr.laneAction l m sub)
      let send : Bool := r.sendCond != .fired
      let atCue : Bool := r.atCond != .fired
      ∃ d, exec (.cueFire tag n) s = .next (s.replied tag (.ok [⟨"", [.cue n]⟩,
          ⟨"STAGES", (if send then [.word "SEND"] else []) ++ (if atCue then [.word "AT"] else [])⟩]) d) ∧
        Dev.Keeps [.sched, .handovers, .notices, .hand] s.dev d ∧
        d.sched.run n = { r with num := n, sendCond := .fired, atCond := .fired } ∧
        (∀ k, k ≠ n → d.sched.run k = s.dev.sched.run k) ∧ d.sched.ctx = s.dev.sched.ctx ∧
        d.sched.deleted = s.dev.sched.deleted ∧
        d.handovers = s.dev.handovers ++ (if send then patches.map (fun p => .patchAction n p) else []) ++
          (if atCue then others ++ [.lateCheck n patches .fired] else []) ∧
        Dev.Raised
          ((if send && !patches.isEmpty then [.cue n .send .fire r.send patches.length s.dev.clock] else []) ++
            (if atCue then [.cue n .atCue .fire (some c.pos) others.length s.dev.clock] else [])) s.dev d)

/-- O37. A beat mark of the run fires the overtaken stages, then those at its position, sets ticks pending; a
pending time reached fires its stages, in firing order. Cites 05 R86, 05 R87, 05 R88, 05 R89, 05 R96. The
model's choices in it: log 23 (a time is reached when the clock is at or past it); log 26 (the order of notices,
of slots and of equal times inside one command); log 41 (what a block does before it takes a change of show
state); log 43 (how a stage fired whose time has passed when it is set). -/
def Obligations.BeatMarksAndTicksFireStages : Prop :=
  let fires (how : FireHow) (l : List Due) (now : Time) : List Notice := l.filterMap fun x =>
    let n := x.cue.patches.length
    if x.stage = .send ∧ n = 0 then none
    else some (.cue x.cue.num x.stage how (some x.point) (if x.stage = .send then n else x.cue.actions.length - n) now)
  let ordered (l : List Due) : Prop := l.Nodup ∧ l.Pairwise fun a b => b.before a = false
  let hands (a : Sched) (x : Due) (h : List Instr) : Prop :=
    match x.stage with
    | .send => h = x.cue.patches.map fun p => .patchAction x.cue.num p
    | .atCue => ∃ seen,
        h = (x.cue.actions.filterMap fun y =>
          match y with
          | .patch _ => none
          | .note i => some (.noteAction i)
          | .lane l m sub => some (.laneAction l m sub)) ++ [.lateCheck x.cue.num x.cue.patches seen] ∧
        ((a.run x.cue.num).sendCond = .fired → seen = .fired) ∧ ((a.run x.cue.num).sendCond = .passed → seen = .passed)
  let rest (a b : Dev) : Prop := b.sched.deleted = a.sched.deleted ∧ ∀ n,
    (b.sched.run n).send = (a.sched.run n).send ∧ (b.sched.run n).placement = (a.sched.run n).placement ∧
      ((∀ c ∈ a.data.cues, c.num ≠ n) → b.sched.run n = a.sched.run n)
  ∀ s : State, (s.dev.data.cues.map Cue.num).Nodup → s.dev.schedOk →
    let a := s.dev
    let point (c : Cue) (st : Stage) : Option TPos := stagePoint c (a.sched.run c.num) st
    let pending (x : Due) : Prop := ∃ t, (a.sched.run x.cue.num).cond x.stage = .pending t
    let listed (x : Due) : Prop := x.cue ∈ a.data.cues ∧ point x.cue x.stage = some x.point
    (∀ m : BeatMark,
      (m.count ≠ none ∨ (a.ctl.state ≠ .countIn ∧ a.ctl.state ≠ .running) →
        exec (.beatMarkCue m) s = .next (s.ended (a.take (.beatMarkCue m)))) ∧
      (m.count = none → a.ctl.state = .countIn ∨ a.ctl.state = .running →
        let met (x : Due) : Prop := listed x ∧ (a.sched.run x.cue.num).cond x.stage = .unspent ∧
          (a.sched.run x.cue.num).placement = some .placed ∧ x.point.toPos = m.pos
        let time (x : Due) : Time := m.time + x.point.tick * m.period / 480
        ∃ (d : Dev) (l1 l2 l3 : List Due) (hs : Due → List Instr),
          exec (.beatMarkCue m) s = .next (s.ended d) ∧ Dev.Keeps [.sched, .handovers, .notices] a d ∧ rest a d ∧
          ordered l1 ∧ ordered l2 ∧ ordered l3 ∧
          (∀ x, x ∈ l1 ↔ listed x ∧ pending x) ∧ (∀ x, x ∈ l2 ↔ met x ∧ x.point.tick = 0) ∧
          (∀ x, x ∈ l3 ↔ met x ∧ x.point.tick ≠ 0 ∧ time x ≤ a.clock) ∧
          (∀ x, x ∈ l1 ++ l2 ++ l3 → (d.sched.run x.cue.num).cond x.stage = .fired) ∧
          (∀ x, met x → x.point.tick ≠ 0 → a.clock < time x →
            (d.sched.run x.cue.num).cond x.stage = .pending (time x)) ∧
          (∀ c ∈ a.data.cues, ∀ st, (∀ p, ¬ met ⟨p, c, st⟩) → (∀ p, ¬ pending ⟨p, c, st⟩) →
            (d.sched.run c.num).cond st = (a.sched.run c.num).cond st) ∧
          d.sched.ctx = a.sched.ctx.map (fun x => { x with cursor := some ⟨m.pos, m.time, m.period⟩ }) ∧
          (∀ x ∈ l1 ++ l2 ++ l3, hands a.sched x (hs x)) ∧
          d.handovers = a.handovers.erase (.beatMarkCue m) ++ (l1 ++ l2 ++ l3).flatMap hs ∧
          Dev.Raised (fires .overtaken l1 a.clock ++ fires .beat l2 a.clock ++ fires .tick l3 a.clock) a d)) ∧
    (∃ (d : Dev) (l : List Due) (hs : Due → List Instr),
      exec .stagePendingTime s = .next (s.ended d) ∧ Dev.Keeps [.sched, .handovers, .notices] a d ∧ rest a d ∧
      ordered l ∧
      (∀ x, x ∈ l ↔ listed x ∧ ∃ t, (a.sched.run x.cue.num).cond x.stage = .pending t ∧ t ≤ a.clock) ∧
      (∀ c ∈ a.data.cues, ∀ st, (d.sched.run c.num).cond st =
        match (a.sched.run c.num).cond st with
        | .pending t => if t ≤ a.clock then .fired else .pending t
        | x => x) ∧
      d.sched.ctx = a.sched.ctx ∧ (∀ x ∈ l, hands a.sched x (hs x)) ∧ d.handovers = a.handovers ++ l.flatMap hs ∧
      Dev.Raised (fires .tick l a.clock) a d)

/-- O38. At the entry into STOPPED: CUE_STOP returns PENDING stages to UNSPENT, SLOT_STOP withholds the queued
slots, VIDEO_STOP_PAGE draws the STOP page at once. Cites 05 R91, 06 R108, 08 R149. The model's choices in it:
log 20 (what an output shows before its first frame and at the entry into STOPPED); log 35 (the blink when a
frame starts before the stop page is taken). -/
def Obligations.StopHandOversReachTheirBlocks : Prop :=
  ∀ s : State,
    (∃ d, exec .cueStop s = .next (s.ended d) ∧ Dev.Keeps [.sched, .handovers] s.dev d ∧
      d.handovers = s.dev.handovers.erase .cueStop ∧ d.sched.ctx = none ∧ d.sched.deleted = s.dev.sched.deleted ∧
      ∀ n,
        (d.sched.run n).send = (s.dev.sched.run n).send ∧ (d.sched.run n).placement = (s.dev.sched.run n).placement ∧
        ∀ st, (d.sched.run n).cond st =
          match (s.dev.sched.run n).cond st with
          | .pending _ => .unspent
          | x => x) ∧
    ((∀ i, (s.dev.slot i).restOk) → ∃ d, exec .slotStop s = .next (s.ended d) ∧
      Dev.Keeps [.slots, .link, .handovers] s.dev d ∧ d.handovers = s.dev.handovers.erase .slotStop ∧
      (∀ i, d.slot i =
        if (s.dev.slot i).req = .queued ∧ (s.dev.slot i).inFlight = false then { s.dev.slot i with req := .withheld }
        else s.dev.slot i) ∧
      d.link = { s.dev.link with
        queue := s.dev.link.queue.filter fun e =>
          !((s.dev.slot e.slot).req == .queued && !(s.dev.slot e.slot).inFlight) }) ∧
    (∃ d, exec .videoStopPage s = .next (s.ended d) ∧ Dev.Keeps [.video, .handovers] s.dev d ∧
      d.handovers = s.dev.handovers.erase .videoStopPage ∧
      d.video = { s.dev.video with blink := none, outs := d.video.outs } ∧
      ∀ o : Fin 6, d.video.outs[o] =
        { s.dev.video.outs[o] with
          flash := 0
          shown := ⟨s.dev.video.outs[o].shown.pic, some .stop, d.drawPage .stop none 0⟩ })

/-! ## The Slot Manager -/

/-- O39. A slot accepts a part code when it agrees with the filter code in every binary digit the mask leaves at 0;
a slot with no filter accepts nothing. Cites 06 R99, 06 R103. The model's choices in it: log 26 (the order of
notices, of slots and of equal times inside one command). -/
def Obligations.FilterAcceptsByItsMask : Prop :=
  (∀ (set : SlotSet) (part : BitVec 12),
    (set.filter = none → set.accepts part = false) ∧
    (∀ f, set.filter = some f →
      (set.accepts part = true ↔ ∀ k, k < 12 → f.mask.getLsbD k = false → part.getLsbD k = f.code.getLsbD k) ∧
      (f.mask = 0x000#12 → (set.accepts part = true ↔ part = f.code)) ∧
      (f.mask = 0xFFF#12 → set.accepts part = true))) ∧
  (∀ (d : Dev) (a : PatchAction),
    d.patchAction a = d.slotEvent fun d =>
      allSlots.foldl (fun d i => if (d.slotSet i).accepts a.part then d.newDesired i (some a.patch) else d) d)

/-- O40. The chase computation at Q gives the patch of the last accepted action in send order at or before Q, else
the home patch, else the desired patch. Cites R113. -/
def Obligations.ChaseTakesTheLastAcceptedPatch : Prop :=
  (∀ (d : Dev) (q : Pos) (i : SlotId), (d.data.cues.map Cue.num).Nodup →
    let accepted (c : Cue) : List PatchAction := c.patches.filter fun a => (d.slotSet i).accepts a.part
    let taken (c : Cue) (p : TPos) : Prop :=
      c ∈ d.data.cues ∧ (d.sched.run c.num).send = some p ∧ p.upTo q.toT = true ∧ accepted c ≠ []
    (∀ c p a, taken c p → (accepted c).getLast? = some a →
      (∀ y r, taken y r → y = c ∨ r.before p = true ∨ (r = p ∧ y.num < c.num)) → d.chaseAt q i = some a.patch) ∧
    ((∀ c p, ¬ taken c p) →
      (∀ h, (d.slotSet i).home = some h → d.chaseAt q i = some h) ∧
      ((d.slotSet i).home = none → d.chaseAt q i = (d.slot i).desired))) ∧
  (∀ (d : Dev) (a : Armed), ∃ b : Dev,
    Dev.Keeps [.eng, .arb, .ctl, .sched, .notices, .handovers] d b ∧
    b.sched.runs = d.data.cues.map (markAtArm d.data.form a.mark.pos) ∧
    (d.armBlocks a).slots = (b.chaseSlots a.mark.pos).slots)

/-- O41. SLOT.FILTER writes the timeout, or a slot's filter and home patch; a change recomputes the slot's desired
patch at the chase point. Cites 06 R98, 06 R100, 06 R101, 06 R103, 06 R114. The model's choices in it: log 15
(the keys no rule shows); log 17 (what an omitted mask keeps, and when a line recomputes); log 45 (no filter is sent as
FILTER=NONE MASK=NONE). -/
def Obligations.SlotFilterWritesAndRecomputes : Prop :=
  ∀ (tag : Nat) (s : State), s.dev.store.writing = false →
    (∀ ms, 100 ≤ ms → ms ≤ 10000 → ∃ d,
      exec (.slotFilter tag (.timeout ms)) s = .next (s.replied tag (.ok [⟨"TIMEOUT", [.num ms]⟩]) d) ∧
      Dev.Keeps [.data, .hand] s.dev d ∧ d.data = { s.dev.data with timeout := ms }) ∧
    (∀ i flt home, (Instr.slotFilter tag (.slot i flt home)).rangeOk = true → s.dev.slotsOk →
      let old := s.dev.slotSet i
      let new : SlotSet :=
        ⟨match flt with
          | .left | .maskAlone _ => old.filter
          | .none => none
          | .code c (some m) => some ⟨c, m⟩
          | .code c none => some ⟨c, (old.filter.map Filter.mask).getD 0x000#12⟩,
          match home with
          | .left => old.home
          | .none => none
          | .patch p => some p⟩
      let mark : Option Pos := s.dev.ctl.armed.map fun a => a.mark.pos
      let point : Option Pos :=
        match s.dev.ctl.state with
        | .arming | .ready | .stopped => mark
        | .countIn => if s.dev.eng.st = .count ∨ s.dev.eng.st = .hold .mark then mark else s.dev.eng.pos
        | .running => s.dev.eng.pos
        | .dark | .done => none
      ∃ d,
        let r := d.slot i
        exec (.slotFilter tag (.slot i flt home)) s = .next (s.replied tag
          (.ok [⟨"", [.slot i]⟩, ⟨"FILTER", (new.filter.map fun f => Val.hex f.code).toList⟩,
            ⟨"MASK", (new.filter.map fun f => Val.hex f.mask).toList⟩, ⟨"HOME", (new.home.map Val.num).toList⟩,
            ⟨"DESIRED", (r.desired.map Val.num).toList⟩, ⟨"CONFIRMED", (r.confirmed.map Val.num).toList⟩,
            ⟨"STATE", [.word r.req.word]⟩]) d) ∧
        Dev.Keeps [.data, .slots, .link, .handovers, .hand] s.dev d ∧
        d.data = { s.dev.data with slots := s.dev.data.slots.set i.index new } ∧
        d.handovers = s.dev.handovers ++ countHand s.dev d ∧
        (new = old ∨ point = none → d.slots = s.dev.slots ∧ d.link = s.dev.link) ∧
        (∀ q, new ≠ old → point = some q →
          let p := (s.dev.setData d.data).chaseAt q i
          Dev.SlotsAfter (fun k => if k = i then (s.dev.slot i).given p (s.dev.ready i) else s.dev.slot k) s.dev d))

/-- O42. PATCH_ACTION gives every accepting slot its desired patch; SLOT.RETRY compares FAULT and WITHHELD slots
again; LATE_CHECK notices the late slots. Cites 06 R102, 06 R103, 06 R109, 06 R112, 06 R114. The model's choices
in it: log 26 (the order of notices, of slots and of equal times inside one command). -/
def Obligations.PatchActionsRetriesAndLateChecks : Prop :=
  ∀ s : State, s.dev.slotsOk →
    let again (i : SlotId) : SlotRun :=
      if (s.dev.slot i).req = .fault ∨ (s.dev.slot i).req = .withheld then
        { s.dev.slot i with req := .idle, chase := false }.given (s.dev.slot i).desired (s.dev.ready i)
      else s.dev.slot i
    (∀ cue a, ∃ d, exec (.patchAction cue a) s = .next (s.ended d) ∧
      Dev.Keeps [.slots, .link, .handovers] s.dev d ∧
      d.handovers = s.dev.handovers.erase (.patchAction cue a) ++ countHand s.dev d ∧
      Dev.SlotsAfter (fun i =>
        if (s.dev.slotSet i).accepts a.part then (s.dev.slot i).given (some a.patch) (s.dev.ready i)
        else s.dev.slot i) s.dev d) ∧
    (∀ tag i,
      ((s.dev.slot i).req = .fault ∨ (s.dev.slot i).req = .withheld →
        ∃ d, exec (.slotRetry tag (some i)) s =
            .next (s.replied tag (.ok [⟨"", [.word (d.slot i).req.word]⟩]) d) ∧
          Dev.Keeps [.slots, .link, .handovers, .hand] s.dev d ∧
          d.handovers = s.dev.handovers ++ countHand s.dev d ∧
          Dev.SlotsAfter (fun k => if k = i then again i else s.dev.slot k) s.dev d) ∧
      ((s.dev.slot i).req = .idle ∨ (s.dev.slot i).req = .queued ∨ (s.dev.slot i).req = .sent →
        exec (.slotRetry tag (some i)) s =
          .next (s.replied tag (.no .state) (s.dev.takeRequest (.slotRetry tag (some i)))))) ∧
    (∀ tag, ∃ d, exec (.slotRetry tag none) s = .next (s.replied tag
        (.ok [⟨"", [.num (allSlots.countP fun i => (s.dev.slot i).req == .fault || (s.dev.slot i).req == .withheld)]⟩])
        d) ∧
      Dev.Keeps [.slots, .link, .handovers, .hand] s.dev d ∧
      d.handovers = s.dev.handovers ++ countHand s.dev d ∧ Dev.SlotsAfter again s.dev d) ∧
    (∀ cue acts seen, ∃ d, exec (.lateCheck cue acts seen) s = .next (s.ended d) ∧
      Dev.Keeps [.handovers, .notices] s.dev d ∧ d.handovers = s.dev.handovers.erase (.lateCheck cue acts seen) ∧
      Dev.Raised (allSlots.filterMap fun i =>
        match (acts.filter fun a => (s.dev.slotSet i).accepts a.part).getLast? with
        | none => none
        | some a =>
          if (s.dev.slot i).desired = some a.patch ∧ (s.dev.slot i).confirmed ≠ some a.patch then
            some (.patch (.late cue a.patch) i (s.dev.slot i) (s.dev.station i.station).state s.dev.clock)
          else none) s.dev d)

/-- O43. A PATCH outcome sends or requeues its slot, a deadline requeues once and then faults, and an APPLIED report
confirms, faults or counts stale. Cites 06 R104, 06 R105, 06 R107, 06 R114, 06 R116. The model's choices in it:
log 4 (an event commanded outside its condition changes nothing of its own). -/
def Obligations.OutcomesDeadlinesAndReports : Prop :=
  ∀ s : State, s.dev.slotsOk →
    let idle (r : SlotRun) : SlotRun :=
      { r with req := .idle, reqPatch := none, attempt := none, inFlight := false, deadline := none }
    let retry (r : SlotRun) (n : Nat) : SlotRun :=
      if r.desired.isSome ∧ r.desired ≠ r.confirmed then
        { r with req := .queued, reqPatch := r.desired, attempt := some n, inFlight := false, deadline := none }
      else idle r
    let fault (r : SlotRun) : SlotRun := { r with req := .fault, inFlight := false, deadline := none }
    let only (i : SlotId) (r : SlotRun) (k : SlotId) : SlotRun := if k = i then r else s.dev.slot k
    ∀ i : SlotId,
    let r := s.dev.slot i
    let now := s.dev.station i.station
    let notice (c : PatchCause) : Notice := .patch c i (fault r) now.state s.dev.clock
    (∀ p st,
      let c : Instr := .patchOutcome i p st
      (r.req = .queued ∧ r.inFlight = true ∧ r.reqPatch = some p →
        ∃ d, exec c s = .next (s.ended d) ∧ Dev.Keeps [.slots, .link, .handovers] s.dev d ∧
          d.handovers = s.dev.handovers.erase c ++ countHand s.dev d ∧
          Dev.SlotsAfter (only i (if st = .ack then
            { r with req := .sent, inFlight := false, deadline := some (s.dev.clock + s.dev.data.timeout * 1000) }
            else retry r (r.attempt.getD 1))) s.dev d) ∧
      (¬ (r.req = .queued ∧ r.inFlight = true ∧ r.reqPatch = some p) →
        exec c s = .next (s.ended (s.dev.take c)))) ∧
    (∀ t, r.req = .sent → r.deadline = some t → t ≤ s.dev.clock →
      ∃ d, exec (.appliedDeadline i) s = .next (s.ended d) ∧ Dev.Keeps [.slots, .link, .handovers, .notices] s.dev d ∧
        d.handovers = s.dev.handovers ++ countHand s.dev d ∧
        Dev.SlotsAfter (only i (if r.attempt = some 2 then fault r else retry r 2)) s.dev d ∧
        Dev.Raised (if r.attempt = some 2 then [notice .timeout] else []) s.dev d) ∧
    ((r.req ≠ .sent ∨ ∀ t, r.deadline = some t → s.dev.clock < t) →
      exec (.appliedDeadline i) s = .next (s.ended s.dev)) ∧
    (∀ p res,
      let c : Instr := .appliedReport i p res
      let accepted : Prop := r.present = true ∧ r.reqPatch = some p ∧ r.req ≠ .idle ∧ (r.req = .fault → res = .ok)
      (accepted → ∃ d, exec c s = .next (s.ended d) ∧ Dev.Keeps [.slots, .link, .handovers, .notices] s.dev d ∧
        d.handovers = s.dev.handovers.erase c ++ countHand s.dev d ∧
        Dev.SlotsAfter (only i (if res = .ok then
          { r with confirmed := some p, req := .idle }.given r.desired (s.dev.ready i) else fault r)) s.dev d ∧
        Dev.Raised (if res = .refused then [notice .refused] else []) s.dev d) ∧
      (¬ accepted → ∃ d, exec c s = .next (s.ended d) ∧ Dev.Keeps [.link, .handovers] s.dev d ∧
        d.handovers = s.dev.handovers.erase c ∧
        d.link = { s.dev.link with
          stations := s.dev.link.stations.set i.station { now with stale := min 65535 (now.stale + 1) } }))

/-- O44. HELLO_RESYNC makes the declared slots present with confirmed NONE and loads them again; STATION_OFF_SLOTS
drops the requests of the station's slots. Cites 06 R110, 06 R111, 06 R114. The model's choices in it: log 18 (a
slot left out by a rejoin). -/
def Obligations.StationsJoinAndGoOffAtTheSlots : Prop :=
  ∀ (n : Fin 16) (s : State), s.dev.slotsOk →
    let idle (r : SlotRun) : SlotRun :=
      { r with req := .idle, reqPatch := none, attempt := none, inFlight := false, deadline := none }
    (∀ k, ∃ d, exec (.helloResync n k) s = .next (s.ended d) ∧ Dev.Keeps [.slots, .link, .handovers] s.dev d ∧
      d.handovers = s.dev.handovers.erase (.helloResync n k) ++ countHand s.dev d ∧
      Dev.SlotsAfter (fun i =>
        let r := s.dev.slot i
        if i.station ≠ n then r
        else if k ≤ i.letter.val then { idle r with present := false }
        else if r.req = .queued then
          if r.inFlight = true ∨ r.desired = none then { r with present := true, confirmed := none }
          else { r with present := true, confirmed := none, reqPatch := r.desired, attempt := some 1 }
        else { r with present := true, confirmed := none, req := .idle }.given r.desired (s.dev.joined n)) s.dev d) ∧
    (∃ d, exec (.stationOffSlots n) s = .next (s.ended d) ∧ Dev.Keeps [.slots, .link, .handovers] s.dev d ∧
      d.handovers = s.dev.handovers.erase (.stationOffSlots n) ++ countHand s.dev d ∧
      Dev.SlotsAfter (fun i =>
        let r := s.dev.slot i
        if i.station = n ∧ (r.req = .queued ∨ r.req = .sent ∨ r.req = .withheld) then idle r else r) s.dev d)

/-! ## The Link Controller -/

/-- O45. The check word makes a frame's sum 0 modulo 65 536, a reply block is tested the same way, and a status byte
is read by its four values, else as CHECK. Cites R186. -/
def Obligations.CheckWordsAndStatusBytes : Prop :=
  (∀ bs : List Byte,
    ∃ hi lo : Byte, checked bs = bs ++ [hi, lo] ∧
      ((bs.map BitVec.toNat).sum + (hi.toNat * 256 + lo.toNat)) % 65536 = 0) ∧
  (∀ (d : Dev) (k : FrameKind) (bs : List Byte), (d.putFrame k bs).link.line = some ⟨k, d.link.epoch, checked bs⟩) ∧
  (∀ a k b3 b4 b5 b6 hi lo : Byte,
    (([a, k, b3, b4, b5, b6].map BitVec.toNat).sum + (hi.toNat * 256 + lo.toNat)) % 65536 ≠ 0 →
      readBlock [a, k, b3, b4, b5, b6, hi, lo] = .bad) ∧
  (∀ b : Byte, readStatus b =
    if b = 0x3C#8 then .ack else if b = 0x0F#8 then .retry else if b = 0x00#8 then .check
    else if b = 0xFF#8 then .silent else .check) ∧
  checked (patchBytes ⟨2, 0⟩ 410) = [0x02#8, 0x03#8, 0x00#8, 0x01#8, 0x9A#8, 0xFF#8, 0x60#8]

/-- O46. At the end of a command a free line takes STOP, a READY CLEAR, a due POLL, the head of the patch queue or a
due BEACON, in that order; else it is kept. Cites 07 R118, 07 R121, 07 R122, 07 R123, 07 R124, 07 R125, 07 R126,
07 R127, 07 R132, 11 R185, 02 R44. The model's choices in it: log 4 (an event commanded outside its condition
changes nothing of its own); log 6 (when the arbiters choose); log 30 (an OFF station's entries that still stand
in the queue); log 37 (kinds that become eligible at one instant are ranked). -/
def Obligations.TransmitArbiterStartsTheFirstEligible : Prop :=
  (∀ d : Dev,
    let l := d.link
    let ready (c : ClearEntry) : Bool := c.ready
    let sendable (e : QueueEntry) : Bool := l.stations[e.slot.station].state != .off
    let pollDue : Prop := ∀ t, l.lastPoll = some t → t + 20000 ≤ d.clock
    let beaconDue : Prop := ∀ t, l.lastBeacon = some t → t + 100000 ≤ d.clock
    let byte (n : Nat) : Byte := BitVec.ofNat 8 n
    let on (k : FrameKind) (bs : List Byte) : Option Frame := some ⟨k, l.epoch, checked bs⟩
    let taken : Prop := ∀ i p x, Instr.patchOutcome i p x ∉ d.handovers
    (∀ f, l.line = some f → d.settle.link = l ∧ d.settle.slots = d.slots) ∧
    (¬ taken → d.settle.link = l ∧ d.settle.slots = d.slots) ∧
    (l.line = none → taken →
      (∀ p, l.stopPending = some p → d.settle.slots = d.slots ∧ d.settle.link =
        { l with
          line := on (.stop p.episode) [4#8, 0#8, byte (p.episode / 256), byte p.episode]
          stopPending := some ⟨p.episode, p.sends + 1⟩ }) ∧
      (l.stopPending = none →
        (∀ c, l.clears.find? ready = some c → d.settle.slots = d.slots ∧ d.settle.link =
          { l with line := on (.clear c.station) [5#8, byte (c.station.val + 1)] }) ∧
        (l.clears.find? ready = none →
          (pollDue → d.settle.slots = d.slots ∧
            d.settle.link = { l with
              line := on .poll [3#8, 0#8, byte (l.rotation.val + 1)]
              lastPoll := some d.clock
              stations := d.settle.link.stations } ∧
            ∀ n : Fin 16, d.settle.link.stations[n] =
              if l.stations[n].state = .off then { l.stations[n] with polls := min 16 (l.stations[n].polls + 1) }
              else l.stations[n]) ∧
          (¬ pollDue →
            (∀ e, l.queue.find? sendable = some e →
              d.settle.slots = d.slots.set e.slot.index { d.slot e.slot with inFlight := true } ∧
              d.settle.link = { l with
                line := on (.patch e.slot e.patch)
                  [2#8, byte (e.slot.station.val + 1), byte e.slot.letter.val, byte (e.patch / 256), byte e.patch]
                queue := l.queue.erase e }) ∧
            (l.queue.find? sendable = none → d.settle.slots = d.slots ∧
              (beaconDue → d.settle.link =
                let p := d.eng.pos.getD ⟨0, 0⟩
                let tempo := tempoShown d.eng.period
                { l with
                  line := on .beacon [1#8, 0#8, byte l.epoch, byte d.ctl.state.code, byte (p.bar / 256), byte p.bar,
                    byte p.beat, if d.ctl.state = .stopped then 1#8 else 0#8, byte d.eng.counter, byte (tempo / 256),
                    byte tempo]
                  lastBeacon := some d.clock }) ∧
              (¬ beaconDue → d.settle.link = l))))))) ∧
  (∀ p n : Nat, 0 < p → 2 * p * n ≤ 120000000 + p → 120000000 + p < 2 * p * (n + 1) →
    tempoShown p = max 30 (min 300 n)) ∧
  ([.dark, .arming, .ready, .countIn, .running, .stopped, .done] : List ShowState).map ShowState.code =
    [0, 1, 2, 3, 4, 5, 6] ∧
  (∀ s : State, exec .pollDue s = .next (s.ended s.dev) ∧ exec .beaconDue s = .next (s.ended s.dev))

/-- O47. A BEACON completion frees the line; a STOP goes again on CHECK up to 4 sends; a CLEAR leaves its list on
ACK, waits otherwise, and counts toward health. Cites 07 R123, 07 R125, 07 R126, 07 R131, 07 R132, 07 R134. The
model's choices in it: log 4 (an event commanded outside its condition changes nothing of its own). -/
def Obligations.BeaconStopAndClearCompletions : Prop :=
  ∀ (s : State) (b : Byte),
    let l := s.dev.link
    (∀ tag bs, l.line = some ⟨.beacon, tag, bs⟩ →
      exec (.beaconFrameComplete b) s = .next (s.ended { s.dev with link := { l with line := none } })) ∧
    (∀ ep tag bs, l.line = some ⟨.stop ep, tag, bs⟩ →
      let again : Prop := ∃ p, l.stopPending = some p ∧ (p.episode ≠ ep ∨
        (b ≠ 0x3C#8 ∧ b ≠ 0x0F#8 ∧ b ≠ 0xFF#8 ∧ p.sends < 4))
      (again → exec (.stopFrameComplete b) s = .next (s.ended { s.dev with link := { l with line := none } })) ∧
      (¬ again → exec (.stopFrameComplete b) s =
        .next (s.ended { s.dev with link := { l with line := none, stopPending := none } }))) ∧
    (∀ n tag bs, l.line = some ⟨.clear n, tag, bs⟩ →
      (tag ≠ l.epoch →
        exec (.clearFrameComplete b) s = .next (s.ended { s.dev with link := { l with line := none } })) ∧
      (tag = l.epoch → ∃ d, exec (.clearFrameComplete b) s = .next (s.ended d) ∧
        Dev.Keeps [.link, .handovers, .notices] s.dev d ∧
        let old := s.dev.station n
        let new := if b = 0x0F#8 then old else
          old.counted (if b = 0x3C#8 then none else if b = 0xFF#8 then some .silent else some .check)
        d.link = { l with
          line := none
          stations := l.stations.set n new
          clears := if b = 0x3C#8 ∨ Station.goesOff old new then l.clears.filter fun c => c.station != n
            else l.clears.map fun c => if c.station = n then ⟨n, false⟩ else c } ∧
        d.handovers = s.dev.handovers ++ (if Station.goesOff old new then [.stationOffSlots n] else []) ∧
        Dev.Raised (healthNotices n old new s.dev.clock) s.dev d)) ∧
    ((∀ tag bs, l.line ≠ some ⟨.beacon, tag, bs⟩) → exec (.beaconFrameComplete b) s = .next (s.ended s.dev)) ∧
    ((∀ ep tag bs, l.line ≠ some ⟨.stop ep, tag, bs⟩) → exec (.stopFrameComplete b) s = .next (s.ended s.dev)) ∧
    ((∀ n tag bs, l.line ≠ some ⟨.clear n, tag, bs⟩) → exec (.clearFrameComplete b) s = .next (s.ended s.dev))

/-- O48. A PATCH completion frees the line, hands its outcome to the Slot Manager and counts toward the station's
health unless a RESET came between. Cites 07 R124, 07 R131, 07 R132, 07 R134, 07 R136. The model's choices in
it: log 4 (an event commanded outside its condition changes nothing of its own). -/
def Obligations.PatchCompletionCountsHealth : Prop :=
  ∀ (s : State) (b : Byte),
    let l := s.dev.link
    let st : FrameStatus :=
      if b = 0x3C#8 then .ack else if b = 0x0F#8 then .retry else if b = 0xFF#8 then .silent else .check
    (∀ i p tag bs, l.line = some ⟨.patch i p, tag, bs⟩ →
      let n := i.station
      let old := s.dev.station n
      (tag ≠ l.epoch ∨ old.state = .off ∨ st = .retry →
        exec (.patchFrameComplete b) s = .next (s.ended { s.dev with
          link := { l with line := none }
          handovers := s.dev.handovers ++ [.patchOutcome i p st] })) ∧
      (tag = l.epoch → old.state ≠ .off → st ≠ .retry → ∃ d, exec (.patchFrameComplete b) s = .next (s.ended d) ∧
        Dev.Keeps [.link, .handovers, .notices] s.dev d ∧
        let faults := if st = .ack then old.faults - 1 else min 256 (old.faults + 8)
        let health : Health :=
          if faults = 256 then .off
          else if old.state = .absent then .absent
          else if 96 ≤ faults then .warn
          else .active
        let new : Station :=
          { old with
            state := health
            faults := faults
            polls := if faults = 256 then 0 else old.polls
            lastError := if st = .ack then old.lastError else if st = .silent then some .silent else some .check }
        d.link = { l with
          line := none
          stations := l.stations.set n new
          clears := if faults = 256 then l.clears.filter fun c => c.station != n else l.clears } ∧
        d.handovers = s.dev.handovers ++ [.patchOutcome i p st] ++ (if faults = 256 then [.stationOffSlots n] else []) ∧
        (health = old.state → Dev.Raised [] s.dev d) ∧
        (health ≠ old.state → ∃ cause, Dev.Raised [.station cause n old.state new s.dev.clock] s.dev d ∧
          (health = .off → cause = .off) ∧ (health = .warn → cause = .warn) ∧ (health = .active → cause = .active)))) ∧
    ((∀ i p tag bs, l.line ≠ some ⟨.patch i p, tag, bs⟩) → exec (.patchFrameComplete b) s = .next (s.ended s.dev))

/-- O49. A POLL completion wakes the CLEAR list; with ACK in its epoch an intact reply block moves the rotation,
counts health and routes its report. Cites 07 R126, 07 R127, 07 R128, 07 R129, 07 R131, 07 R133, 07 R134, 11
R187. The model's choices in it: log 4 (an event commanded outside its condition changes nothing of its own). -/
def Obligations.PollCompletionTakesTheReplyBlock : Prop :=
  ∀ (s : State) (b : Byte),
    let l := s.dev.link
    let woken (cs : List ClearEntry) : List ClearEntry := cs.map fun c => ⟨c.station, true⟩
    let bare : Dev := { s.dev with link := { l with line := none, clears := woken l.clears } }
    (∀ tag bs, l.line = some ⟨.poll, tag, bs⟩ →
      (∀ block, b ≠ 0x3C#8 ∨ tag ≠ l.epoch ∨ block.length ≠ 8 →
        exec (.pollFrameComplete b block) s = .next (s.ended bare)) ∧
      (∀ a k b3 b4 b5 b6 hi lo : Byte, tag = l.epoch →
        let block := [a, k, b3, b4, b5, b6, hi, lo]
        let sum := (([a, k, b3, b4, b5, b6].map BitVec.toNat).sum + (hi.toNat * 256 + lo.toNat)) % 65536
        (sum ≠ 0 ∨ a.toNat = 0 ∨ 16 < a.toNat →
          exec (.pollFrameComplete 0x3C#8 block) s = .next (s.ended bare)) ∧
        (∀ n : Fin 16, sum = 0 → a.toNat = n.val + 1 → ∃ d,
          exec (.pollFrameComplete 0x3C#8 block) s = .next (s.ended d) ∧
          Dev.Keeps [.link, .handovers, .notices] s.dev d ∧
          let patch := b4.toNat * 256 + b5.toNat
          let unknown : Prop := 4 < k.toNat ∨ (k.toNat = 1 ∧ (b3.toNat = 0 ∨ 4 < b3.toNat)) ∨
            (k.toNat = 2 ∧ (3 < b3.toNat ∨ 16383 < patch ∨ 1 < b6.toNat))
          let old := s.dev.station n
          let now := old.counted (if unknown then some .unknownReport else none)
          let off := Station.goesOff old now
          let stale : Station := { now with stale := min 65535 (now.stale + 1) }
          let joined : Station := { now with state := .active, faults := 0, polls := 0, slotCount := b3.toNat }
          let ends (last : Station) (hands : List Instr) (ns : List Notice) : Prop :=
            d.link = { l with
              line := none
              rotation := n + 1
              stations := l.stations.set n last
              clears := woken (if off then l.clears.filter fun c => c.station != n else l.clears) } ∧
            d.handovers = s.dev.handovers ++ (if off then [.stationOffSlots n] else []) ++ hands ∧
            Dev.Raised (healthNotices n old now s.dev.clock ++ ns) s.dev d
          (unknown → ends now [] []) ∧
          (k.toNat = 0 → ends now [] []) ∧
          (k.toNat = 3 → ends now [.panic n] []) ∧
          (k.toNat = 4 → ((now.state = .active ∨ now.state = .warn) ∧ s.dev.data.perms[n] = .allowed →
              ends now [.vampoutReport n] []) ∧
            (¬ ((now.state = .active ∨ now.state = .warn) ∧ s.dev.data.perms[n] = .allowed) → ends stale [] [])) ∧
          (∀ x : Fin 4, k.toNat = 2 → ¬ unknown → b3.toNat = x.val →
            (now.state = .off → ends stale [] []) ∧
            (now.state ≠ .off →
              ends now [.appliedReport ⟨n, x⟩ patch (if b6.toNat = 0 then .ok else .refused)] [])) ∧
          (k.toNat = 1 → ¬ unknown →
            (now.state = .off ∧ now.polls ≠ 16 → ends stale [] []) ∧
            (¬ (now.state = .off ∧ now.polls ≠ 16) →
              ends joined [.helloResync n b3.toNat] [.station .join n now.state joined s.dev.clock]))))) ∧
    (∀ block, (∀ tag bs, l.line ≠ some ⟨.poll, tag, bs⟩) → exec (.pollFrameComplete b block) s = .next (s.ended s.dev))

/-! ## The Video Unit -/

/-- O50. VIDEO.SET writes standard and flash length, a change of standard restarting frames, stores, cameras and
rooms; OUT.SET writes an output's settings. Cites 08 R140, 08 R142, 08 R143, 04 R63, 04 R65, 04 R67. The model's
choices in it: log 15 (the keys no rule shows); log 26 (the order of notices, of slots and of equal times inside
one command); log 31 (which hand-over sets an output's camera). -/
def Obligations.VideoAndOutputSettings : Prop :=
  (∀ (tag : Nat) (f : VideoFields) (s : State), (Instr.videoSet tag f).rangeOk = true →
    let std := f.std.getD s.dev.data.std
    let v := s.dev.video
    let playing : Prop := s.dev.ctl.state = .countIn ∨ s.dev.ctl.state = .running
    (std ≠ s.dev.data.std → playing →
      exec (.videoSet tag f) s = .next (s.replied tag (.no .state) (s.dev.takeRequest (.videoSet tag f)))) ∧
    ((std ≠ s.dev.data.std → ¬ playing) → s.dev.store.writing = false ∨ f = ⟨none, none⟩ →
      ∃ d, exec (.videoSet tag f) s = .next (s.replied tag
          (.ok [⟨"STD", [.word std.word]⟩, ⟨"F", [.num std.frame]⟩, ⟨"FLASH", [.num d.data.flashLen]⟩]) d) ∧
        d.data = { s.dev.data with std := std, flashLen := f.flash.getD s.dev.data.flashLen } ∧
        (std = s.dev.data.std → Dev.Keeps [.data, .hand] s.dev d) ∧
        (std ≠ s.dev.data.std →
          Dev.Keeps [.data, .video, .rooms, .notices, .hand] s.dev d ∧
          d.video =
            { v with
              origin := s.dev.clock
              nextFrame := 0
              cam1 := ⟨false, 51, none⟩
              cam2 := ⟨false, 51, none⟩
              store := []
              tags := []
              lastPos := none
              outs := d.video.outs
              blink := none } ∧
          (∀ o : Fin 6, d.video.outs[o] = { v.outs[o] with flash := 0 }) ∧
          (∀ r : Fin 4, d.rooms[r] = align s.dev.data.rooms[r] std.frame) ∧
          Dev.Raised (([0, 1, 2, 3] : List (Fin 4)).filterMap fun r =>
            if d.rooms[r].short = s.dev.rooms[r].short then none
            else some (.align r s.dev.data.rooms[r] d.rooms[r])) s.dev d))) ∧
  (∀ (tag : Nat) (o : Fin 6) (f : OutFields) (s : State), (Instr.outSet tag o f).rangeOk = true →
    let old := s.dev.data.outs[o]
    let run := s.dev.video.outs[o]
    (f.delay.isSome = true → (∃ r : Fin 4, s.dev.data.rooms[r].out = some o) →
      exec (.outSet tag o f) s = .next (s.replied tag (.no .state) (s.dev.takeRequest (.outSet tag o f)))) ∧
    (f.delay = none ∨ (∀ r : Fin 4, s.dev.data.rooms[r].out ≠ some o) →
      s.dev.store.writing = false ∨ f = ⟨none, none, none⟩ → ∃ d,
        let new := d.data.outs[o]
        exec (.outSet tag o f) s = .next (s.replied tag
          (.ok [⟨"", [.num (o.val + 1)]⟩, ⟨"SOURCE", [.word new.source.word]⟩, ⟨"PORTDELAY", [.num new.portDelay]⟩,
            ⟨"OVERLAY", [.word (if new.overlay then "ON" else "OFF")]⟩, ⟨"DELAY", [.num (d.delay o)]⟩,
            ⟨"CAMERA", [.word run.cam.word]⟩, ⟨"FLASH", [.num run.flash]⟩,
            ⟨"ROOM", ((roomOf s.dev.data.rooms o).map fun r => Val.num (r.val + 1)).toList⟩]) d) ∧
        Dev.Keeps [.data, .video, .hand] s.dev d ∧
        new = ⟨f.source.getD old.source, f.delay.getD old.portDelay, f.overlay.getD old.overlay⟩ ∧
        d.data = { s.dev.data with outs := s.dev.data.outs.set o new } ∧
        let kept : OutRun := { run with next := if new.source = old.source then run.next else none }
        d.video = { s.dev.video with outs := s.dev.video.outs.set o kept }))

/-- O51. OVL.TEXT and OVL.FLASH write cells of one row, OVL.FIELD moves a field unless it overlaps another, and a
page draws its codes, fields, flash and blink. Cites 08 R144, 08 R145, 08 R146, 08 R148, 08 R149. The model's
choices in it: log 15 (the keys no rule shows); log 45 (an absent place is answered by one bare NONE). -/
def Obligations.OverlayRequestsWriteCellsAndPlaces : Prop :=
  (∀ (tag : Nat) (s : State), s.dev.store.writing = false →
    let data := s.dev.data
    (∀ (pg : PageSel) (row col : Nat), 1 ≤ row → row ≤ 2 → 1 ≤ col → col ≤ 32 →
      let start := 32 * (row - 1) + (col - 1)
      let written (d : Dev) (n : Nat) (new : Nat → Cell → Cell) : Prop :=
        Dev.Keeps [.data, .hand] s.dev d ∧
        d.data = { data with runPage := d.data.runPage, stopPage := d.data.stopPage } ∧
        (∀ p, p ≠ pg → d.data.page p = data.page p) ∧
        ∀ k : Fin 64, (d.data.page pg)[k] =
          if start ≤ k.val ∧ k.val < start + n then new (k.val - start) (data.page pg)[k] else (data.page pg)[k]
      (∀ t : Text, ∃ d,
        let n := min t.length (33 - col)
        exec (.ovlText tag pg row col t) s = .next (s.replied tag (.ok [⟨"", [.num n]⟩]) d) ∧
        written d n fun k c => { c with code := (t[k]?).getD c.code }) ∧
      (∀ (count : Nat) (on : Bool), ∃ d,
        let n := min count (33 - col)
        exec (.ovlFlash tag pg row col count on) s = .next (s.replied tag (.ok [⟨"", [.num n]⟩]) d) ∧
        written d n fun _ c => { c with flash := on })) ∧
    (∀ (f : Field) (p : Option Place), (Instr.ovlField tag f p).rangeOk = true →
      let clash : Prop := ∃ a g b, p = some a ∧ g ≠ f ∧ fieldPage g = fieldPage f ∧
        data.fields[g.index] = some b ∧ b.row = a.row ∧ a.col < b.col + fieldWidth g ∧ b.col < a.col + fieldWidth f
      (clash → exec (.ovlField tag f p) s = .next (s.replied tag (.no .overlap) (s.dev.takeRequest (.ovlField tag f p)))) ∧
      (¬ clash → ∃ d, exec (.ovlField tag f p) s = .next (s.replied tag
          (.ok (⟨"", [.word (fieldWord f)]⟩ :: match p with
            | some a => [⟨"ROW", [.num a.row]⟩, ⟨"COL", [.num a.col]⟩]
            | none => [⟨"", [.word "NONE"]⟩])) d) ∧
        Dev.Keeps [.data, .hand] s.dev d ∧ d.data = { data with fields := d.data.fields } ∧
        d.data.fields[f.index] = p ∧ ∀ g : Field, g ≠ f → d.data.fields[g.index] = data.fields[g.index]))) ∧
  ∀ (d : Dev) (rec : Option Pos),
    let right (w : Nat) (t : Text) : Text := List.replicate (w - t.length) 32#8 ++ t
    let left (w : Nat) (t : Text) : Text := (t ++ List.replicate (w - t.length) 32#8).take w
    let g := d.eng
    let text := d.fieldText rec
    (text .bar = right 4 ((rec.map fun p => decimal p.bar).getD []) ∧
      text .beat = right 2 ((rec.map fun p => decimal p.beat).getD []) ∧
      text .tempo = right 3 (decimal (max 30 (min 300 ((2 * 60000000 + g.period) / (2 * g.period))))) ∧
      (d.nextCue = none → text .nextCue = right 6 []) ∧
      (∀ c, d.nextCue = some c → text .nextCue = right 6
        (if c.num % 10 = 0 then decimal (c.num / 10)
          else decimal (c.num / 10) ++ ascii "." ++ decimal (c.num % 10))) ∧
      text .vamp = left 6
        (if g.pass = 0 then []
          else if g.rel = .armed then ascii "LAST"
          else if g.rel = .deferred then ascii "LAST+1"
          else if g.pass ≤ 9 then ascii "VAMP " ++ decimal g.pass
          else if g.pass ≤ 99 then ascii "VAMP" ++ decimal g.pass
          else ascii "VAMP99") ∧
      text .focus = left 6 ((d.arb.focus.map fun f => (d.data.srcs.get f.src).name).getD []) ∧
      text .note = left 32 ((d.video.note.map fun n => d.data.notes[n]).getD []) ∧
      (d.ctl.first = none → text .holder = left 6 []) ∧
      (d.ctl.first = some .lineA → text .holder = ascii "LINE_A") ∧
      (d.ctl.first = some .lineB → text .holder = ascii "LINE_B") ∧
      (d.ctl.first = some .port → text .holder = ascii "PORT  ") ∧
      (∀ n, d.ctl.first = some (.station n) → text .holder = left 6 (stationText n)) ∧
      text .mark = left 8 ((d.ctl.armed.map fun a => a.mark.name).getD [])) ∧
    ∀ (pg : PageSel) (flash : Nat),
      let cells := d.drawPage pg rec flash
      let lapsed : Bool := d.arb.focus.map Focus.status == some .lapsed
      let half := match d.data.std with
        | .hz50 => 25
        | .hz5994 => 30
      let blank : Prop := ∃ n, d.video.blink = some n ∧ n / half % 2 = 1
      cells.length = 64 ∧ ∀ i : Fin 64,
        let cell := (d.data.page pg)[i]
        let covers (f : Field) (p : Place) : Prop := fieldPage f = pg ∧ d.data.fields[f.index] = some p ∧
          32 * (p.row - 1) + (p.col - 1) ≤ i.val ∧ i.val < 32 * (p.row - 1) + (p.col - 1) + fieldWidth f
        let drawn (code : Byte) (inFocus : Bool) : Prop :=
          let c := if 32 ≤ code.toNat ∧ code.toNat ≤ 126 then code else 32#8
          (pg = .run → cells[i.val]? = some ⟨c, xor (cell.flash && decide (0 < flash)) (inFocus && lapsed)⟩) ∧
          (pg = .stop → cell.flash = true → blank → cells[i.val]? = some ⟨32#8, false⟩) ∧
          (pg = .stop → cell.flash = false ∨ ¬ blank → cells[i.val]? = some ⟨c, false⟩)
        ((∀ f p, ¬ covers f p) → drawn cell.code false) ∧
        (∀ f p, covers f p → (∀ h q, covers h q → h = f) →
          drawn (((text f)[i.val - (32 * (p.row - 1) + (p.col - 1))]?).getD 32#8) (f == .focus))

/-- O52. A reference frame captures both cameras and shows each output its slot at its delay with page, flash and
blink; a beat mark tags the first slot at or after it. Cites 08 R138, 08 R139, 08 R140, 08 R141, 08 R142, 08
R146, 08 R148, 08 R149. The model's choices in it: log 4 (an event commanded outside its condition changes
nothing of its own); log 26 (the order of notices, of slots and of equal times inside one command). -/
def Obligations.ReferenceFramesShowTheDelayedSlot : Prop :=
  ∀ s : State,
    let v := s.dev.video
    let f := s.dev.data.std.frame
    (∀ (m : BeatMark) (n : Nat), m.time ≤ v.origin + n * f → (∀ j, j < n → v.origin + j * f < m.time) →
      exec (.beatMarkVideo m) s = .next (s.ended { s.dev with
        handovers := s.dev.handovers.erase (.beatMarkVideo m)
        video :=
          { v with
            store := v.store.map fun x => if x.no = n then { x with tag := some m.kind } else x
            tags := if v.nextFrame ≤ n then ⟨n, m.kind⟩ :: v.tags.filter fun x => x.no != n else v.tags
            lastPos := some m.pos } })) ∧
    (∀ f1 f2 : Option Nat,
      let k := v.nextFrame
      let t := v.origin + k * f
      let cam (c : CamRun) : Option Nat → CamRun
        | some x => ⟨true, 0, some x⟩
        | none => ⟨c.locked && min 51 (c.missing + 1) < 2, min 51 (c.missing + 1), c.lastGood⟩
      let pic (c : CamRun) : Option Nat → Picture
        | some x => .live x
        | none => if c.missing < 50 then (match c.lastGood with | some x => .held x | none => .black) else .black
      let current (o : Fin 6) : Cam := match s.dev.data.outs[o].source with
        | .cam1 => .cam1
        | .cam2 => .cam2
        | .focus => v.outs[o].next.getD v.outs[o].cam
      let notices (which : Cam) (c : CamRun) (x : Option Nat) : List Notice :=
        let on := (([0, 1, 2, 3, 4, 5] : List (Fin 6)).filter fun o => current o == which).map fun o => o.val + 1
        (if x ≠ none ∧ c.locked = false then [.video .locked which on t] else []) ++
          (if x = none ∧ c.locked = true ∧ c.missing = 1 then [.video .lost which on t] else []) ++
          (if x = none ∧ c.missing = 50 then [.video .black which on t] else [])
      let slot : VSlot :=
        ⟨k, pic v.cam1 f1, pic v.cam2 f2, (v.tags.find? fun x => x.no == k).map VTag.kind, v.lastPos⟩
      (s.dev.clock < t → exec (.referenceFrameStart f1 f2) s = .next (s.ended s.dev)) ∧
      (t ≤ s.dev.clock → ∃ d, exec (.referenceFrameStart f1 f2) s = .next (s.ended d) ∧
        Dev.Keeps [.video, .notices] s.dev d ∧
        d.video =
          { v with
            nextFrame := k + 1
            cam1 := cam v.cam1 f1
            cam2 := cam v.cam2 f2
            store := (slot :: v.store).take 9
            tags := v.tags.filter fun x => k < x.no
            outs := d.video.outs
            blink := if s.dev.ctl.state = .stopped then some (match v.blink with | none => 0 | some n => n + 1)
              else none } ∧
        Dev.Raised (notices .cam1 v.cam1 f1 ++ notices .cam2 v.cam2 f2) s.dev d ∧
        ∀ o : Fin 6,
          let out := d.video.outs[o]
          let seen := if s.dev.delay o ≤ k then d.video.store.find? fun x => x.no == k - s.dev.delay o else none
          let page : Option PageSel :=
            if s.dev.ctl.state = .stopped then some .stop
            else if s.dev.data.outs[o].overlay then some .run
            else none
          out.cam = current o ∧ out.next = none ∧
          out.shown.pic = (match seen with
            | none => .black
            | some x => match out.cam with | .cam1 => x.pic1 | .cam2 => x.pic2) ∧
          out.shown.page = page ∧
          (page = none → out.shown.cells = []) ∧
          (∀ pg, page = some pg → out.shown.cells = d.drawPage pg (seen.bind VSlot.pos) out.flash) ∧
          (page ≠ some .run → out.flash = 0) ∧
          (page = some .run → out.flash =
            match seen.bind VSlot.tag with
            | none => v.outs[o].flash - 1
            | some .downbeat | some .countDown => 2 * s.dev.data.flashLen
            | some .beat | some .count => s.dev.data.flashLen)))

/-! ## The Show Controller -/

/-- O53. ARM is refused by state, mark, gap and range in that order; taken, it sets the armed mark, count-in, focus,
stages, chases and the show state. Cites 01 R14, 01 R15, 02 R39, 03 R60, 04 R77, 05 R85, 05 R92, 06 R114, 08
R147, 09 R153, 09 R154, 09 R164. The model's choices in it: log 9 (which hand-overs a stop or an ARM withdraws
or takes first); log 10 (beat serial numbers and the flags of a close); log 21 (what ends a claim with the
focus); log 26 (the order of notices, of slots and of equal times inside one command). -/
def Obligations.ArmIsCheckedAndReachesEveryBlock : Prop :=
  ∀ (tag : Nat) (name : Text) (s : State), (Instr.arm tag name).rangeOk = true →
    let c : Instr := .arm tag name
    let data := s.dev.data
    let form := data.form
    let refused (x : Code) : Prop := exec c s = .next (s.replied tag (.no x) (s.dev.takeRequest c))
    let a := s.dev.takeShowChanges
    let before := s.dev.ctl.state
    (before = .countIn ∨ before = .running → refused .state) ∧
    (before ≠ .countIn → before ≠ .running →
      ((∀ m ∈ data.marks, m.name ≠ name) → refused .notFound) ∧
      (∀ m, data.marks.find? (fun x => x.name == name) = some m →
        (covered form = false → refused .gap) ∧
        (covered form = true → inForm form m.pos = false → refused .range) ∧
        (∀ i e, covered form = true → inForm form m.pos = true → entryOfBar form m.pos.bar = some (i, e) →
          a.slotsOk → (data.cues.map Cue.num).Nodup → ∃ d,
          exec c s = .next (s.replied tag
            (.ok [⟨"", [.word d.ctl.state.word]⟩, ⟨"CHASE", [.num d.ctl.count]⟩]) d) ∧
          Dev.Keeps [.ctl, .eng, .arb, .sched, .slots, .link, .lanes, .video, .notices, .handovers, .hand] s.dev d ∧
          let after : ShowState :=
            if before = .stopped then .stopped else if chaseCount d.slots = 0 then .ready else .arming
          let acts : List Action :=
            (data.cues.filter fun y => y.pos.before m.pos.toT && inForm form y.pos.toPos).flatMap Cue.actions
          let unclaimed (r : SrcRun) : SrcRun := { r with claims := 0, claimBeat := none, claimTap := none }
          let holder := s.dev.arb.focus.map Focus.src
          let ready : Prepared :=
            ⟨m.pos, i, m.countIn, e.meter, e.clampPeriod ((m.tempo.or e.nominal).getD s.dev.eng.period)⟩
          d.ctl = { s.dev.ctl with state := after, armed := some ⟨m, i⟩, count := chaseCount d.slots } ∧
          (s.dev.arb.pin = true → d.eng = { s.dev.eng with prepared := some ready } ∧
            d.arb = { s.dev.arb with srcs := d.arb.srcs } ∧
            ∀ x, d.arb.srcs.get x =
              if holder = some x then s.dev.arb.srcs.get x else unclaimed (s.dev.arb.srcs.get x)) ∧
          (s.dev.arb.pin = false →
            d.eng =
              { s.dev.eng with
                prepared := some ready
                matchedL := false
                matchedPrev := false
                tm := none
                closes := s.dev.eng.closes.map fun y => { y with matched := false } } ∧
            d.arb.focus = none ∧ d.arb.misses = 0 ∧ d.arb.pin = false ∧
            ∀ x, d.arb.srcs.get x = unclaimed (s.dev.arb.srcs.get x)) ∧
          d.sched.deleted = [] ∧ d.sched.ctx = some ⟨m.pos, none⟩ ∧
          (∀ y ∈ data.cues, d.sched.run y.num =
            if inForm form y.pos.toPos then
              let p := leadWalk form y.pos y.lead
              ⟨y.num, some p, some .placed, if m.pos.toT.before p then .unspent else .passed,
                if y.pos.before m.pos.toT then .passed else .unspent⟩
            else ⟨y.num, none, some .unplaced, .passed, .passed⟩) ∧
          d.queueOk ∧ d.link = { a.link with queue := d.link.queue } ∧
          d.link.queue.map QueueEntry.slot =
            ((a.link.queue.map QueueEntry.slot).filter fun k => (d.slot k).waits) ++
              (allSlots.filter fun k => (d.slot k).waits && !(a.slot k).waits) ∧
          (∀ k,
            let chased := Dev.chaseAt { a with sched := d.sched } m.pos k
            let g := { a.slot k with chase := false }.given chased (s.dev.ready k)
            d.slot k = { g with chase := s.dev.ready k &&
              (g.req == .queued || g.req == .sent) && g.desired.isSome && g.desired != g.confirmed }) ∧
          (∀ l : Fin 8, d.lanes[l] =
            { a.lanes[l] with
              cueMute := ((acts.filterMap fun x => match x with
                | .lane k mute _ => if k = l then some mute else none
                | _ => none).getLast?).getD .opened
              cueSub := (acts.filterMap fun x => match x with
                | .lane k _ (some n) => if k = l then some n else none
                | _ => none).getLast? }) ∧
          d.video = { a.video with
            note := ((acts.filterMap fun x => match x with | .note n => some n | _ => none).getLast?).getD none } ∧
          d.handovers = (a.handovers.filter fun x => !isCount x) ++
            (if s.dev.arb.pin then [] else [.focusHandoverVideo none]) ++
            (if after = before then [] else [.lanesStateChange after]) ∧
          Dev.Raised
            ((if s.dev.arb.pin = false ∧ holder ≠ none then [.focus .clear none holder none false s.dev.clock] else []) ++
              (data.cues.filterMap fun y =>
                if inForm form y.pos.toPos then none else some (.cueUnplaced y.num y.pos)) ++
              (if after = before then []
              else [.showCtl .arm (some before) after s.dev.ctl.episode (some m.name) s.dev.clock])) s.dev d)))

/-- O54. GO starts the count-in or releases a hold, else is refused by state; the count, the mark's beat and the act
end move the show to READY, RUNNING and DONE. Cites 02 R29, 02 R33, 02 R34, 02 R40, 02 R41, 02 R42, 09 R152, 09
R155, 09 R156, 09 R157, 09 R158. The model's choices in it: log 4 (an event commanded outside its condition
changes nothing of its own); log 9 (which hand-overs a stop or an ARM withdraws or takes first); log 10 (beat
serial numbers and the flags of a close); log 12 (a GO in COUNT_IN while the engine holds); log 36 (ACTEND
carries no mark). -/
def Obligations.GoAndTheSignalsMoveTheShow : Prop :=
  ∀ s : State,
    let g := s.dev.eng
    let form := s.dev.data.form
    let ctl := s.dev.ctl
    let st := ctl.state
    let now := s.dev.clock
    (∀ (tag : Nat) (force : Bool),
      let c : Instr := .go tag force
      let refused (x : Code) : Prop := exec c s = .next (s.replied tag (.no x) (s.dev.takeRequest c))
      let holds : Prop := (st = .countIn ∧ ∃ k, g.st = .hold k) ∨ (st = .running ∧ g.st = .hold .point)
      (st = .dark ∨ st = .done → refused .state) ∧ (st = .stopped → refused .held) ∧
      (st = .arming → force = false → refused .notReady) ∧
      (st = .countIn ∨ st = .running → ¬ holds → refused .notHeld) ∧
      (holds → exec c s = .next (s.replied tag (.ok []) ((s.dev.takeRequest c).goRelease now))) ∧
      (∀ p e, st = .ready ∨ (st = .arming ∧ force = true) → g.prepared = some p → entryAt form p.entry = some e →
        0 < p.meter →
        let close := p.period * s.dev.data.engine.w / 64
        let emitted : Engine :=
          { g with
            period := p.period
            last := some now
            pos := some p.pos
            entry := some p.entry
            matchedL := false
            matchedPrev := false
            tm := none
            window := close
            beatNo := g.beatNo + 1
            closes := g.closes ++ [⟨⟨g.beatNo + 1, p.pos⟩, now + close, e.mode == .follow, false⟩] }
        ∃ (d : Dev) (beats : List Instr),
        exec c s = .next (s.replied tag (.ok [⟨"", [.word "COUNT_IN"]⟩, ⟨"CHASE", [.num ctl.count]⟩]) d) ∧
        Dev.Keeps [.ctl, .eng, .handovers, .notices, .hand] s.dev d ∧ d.ctl = { ctl with state := .countIn } ∧
        Dev.Raised [.showCtl .go (some st) .countIn ctl.episode ctl.markName now] s.dev d ∧
        d.handovers = s.dev.handovers ++ beats ∧
        d.eng.period = p.period ∧ d.eng.current = some p.entry ∧ d.eng.matchedL = false ∧ d.eng.matchedPrev = false ∧
        d.eng.tm = none ∧
        (0 < p.bars →
          d.eng = { emitted with
            st := .count
            due := some (now + p.period)
            pass := 0
            counter := p.bars * p.meter - 1 } ∧
          ∃ m : BeatMark, m = ⟨now, p.pos, .countDown, p.period, p.entry, 0, false, some 1⟩ ∧
            beats = [.beatMarkCue m, .beatMarkClick m, .beatMarkVideo m, .beatMarkPort m]) ∧
        (p.bars = 0 → e.mode = .follow → beats = [] ∧
          d.eng = { g with
            st := .hold .mark
            due := none
            period := p.period
            matchedL := false
            matchedPrev := false
            tm := none }) ∧
        (p.bars = 0 → e.mode = .lead →
          let hold := decide (p.pos ∈ e.holds)
          let pass := if e.vamp.isSome then 1 else 0
          d.eng = { emitted with
            st := if hold then .hold .point else .run
            due := if hold then none else some (now + p.period)
            pass := pass
            counter := 0 } ∧
          ∃ m : BeatMark, m = ⟨now, p.pos, if p.pos.beat = 1 then .downbeat else .beat, p.period, p.entry,
              pass, hold, none⟩ ∧
            beats = [.beatMarkCue m, .beatMarkClick m, .beatMarkVideo m, .beatMarkPort m, .markBeat]))) ∧
    (∀ n, ∃ d, exec (.chasePendingCount n) s = .next (s.ended d) ∧ Dev.Keeps [.ctl, .notices, .handovers] s.dev d ∧
      (st = .arming ∧ n = 0 → d.ctl = { ctl with count := 0, state := .ready } ∧
        d.handovers = s.dev.handovers.erase (.chasePendingCount n) ++ [.lanesStateChange .ready] ∧
        Dev.Raised [.showCtl .loaded (some .arming) .ready ctl.episode ctl.markName now] s.dev d) ∧
      (¬ (st = .arming ∧ n = 0) → d.ctl = { ctl with count := n } ∧
        d.handovers = s.dev.handovers.erase (.chasePendingCount n) ∧ Dev.Raised [] s.dev d)) ∧
    (st = .countIn → ∃ d, exec .markBeat s = .next (s.ended d) ∧ Dev.Keeps [.ctl, .notices, .handovers] s.dev d ∧
      d.ctl = { ctl with state := .running } ∧ d.handovers = s.dev.handovers.erase .markBeat ∧
      Dev.Raised [.showCtl .markBeat (some .countIn) .running ctl.episode ctl.markName now] s.dev d) ∧
    (st ≠ .countIn → exec .markBeat s = .next (s.ended (s.dev.take .markBeat))) ∧
    (st = .running → ∃ d, exec .actEnd s = .next (s.ended d) ∧
      Dev.Keeps [.ctl, .eng, .slots, .sched, .notices, .handovers] s.dev d ∧
      d.ctl = { ctl with state := .done, armed := none, count := 0 } ∧ d.eng = { g with prepared := none } ∧
      (∀ i, d.slot i = { s.dev.slot i with chase := false }) ∧ d.sched = { s.dev.sched with ctx := none } ∧
      d.handovers = (s.dev.handovers.erase .actEnd).filter (fun x => !isCount x) ∧
      Dev.Raised [.showCtl .actEnd (some .running) .done ctl.episode none now] s.dev d) ∧
    (st ≠ .running → exec .actEnd s = .next (s.ended (s.dev.take .actEnd)))

/-- O55. STOP, PANIC and an asserted line add their holder, the first entering STOPPED; STOP.CLEAR and a released
line remove theirs, the last leaving STOPPED. Cites 07 R126, 09 R159, 09 R160, 09 R161, 09 R162, 09 R163, 09
R165. The model's choices in it: log 4 (an event commanded outside its condition changes nothing of its own);
log 9 (which hand-overs a stop or an ARM withdraws or takes first). -/
def Obligations.StopHoldersJoinAndLeave : Prop :=
  ∀ s : State,
    let ctl := s.dev.ctl
    (∀ tag reason, (Instr.stop tag reason).rangeOk = true → ∃ d,
      exec (.stop tag reason) s = .next (s.replied tag
        (.ok (if Holder.port ∈ ctl.holders then [⟨"", [.word "ALREADY"]⟩]
          else [⟨"", [.word "STOPPED"]⟩, ⟨"", [.num d.ctl.episode]⟩])) d) ∧
      Dev.Joins .port (reason.getD 0) (s.dev.takeRequest (.stop tag reason)) d) ∧
    (∀ n, ∃ d, exec (.panic n) s = .next (s.ended d) ∧ Dev.Joins (.station n) 0 (s.dev.take (.panic n)) d) ∧
    (∀ tag h,
      let c : Instr := .stopClear tag h
      let reply : Answer := .ok [⟨"", [.word (if h ∈ ctl.holders then "CLEARED" else "ABSENT")]⟩]
      (h = .lineA ∨ h = .lineB → exec c s = .next (s.replied tag (.no .state) (s.dev.takeRequest c))) ∧
      (h = .port → ∃ d, exec c s = .next (s.replied tag reply d) ∧ Dev.Leaves h (s.dev.takeRequest c) d) ∧
      (∀ n, h = .station n → ∃ d, Dev.Leaves h (s.dev.takeRequest c) d ∧
        let l := s.dev.link
        exec c s = .next (s.replied tag reply { d with
          link := { l with
            clears :=
              if (s.dev.station n).state = .off then l.clears
              else if n ∈ l.clears.map ClearEntry.station then
                l.clears.map fun x => if x.station = n then ⟨n, true⟩ else x
              else l.clears ++ [⟨n, true⟩] } }))) ∧
    (∀ l lv,
      let r := ctl.line l
      (lv = r.level → exec (.stopLineLevelChange l lv) s = .next (s.ended s.dev)) ∧
      (lv ≠ r.level → exec (.stopLineLevelChange l lv) s = .next (s.ended { s.dev with
        ctl := ctl.setLine l ⟨lv, s.dev.clock, r.taken⟩ }))) ∧
    (∀ l,
      let r := ctl.line l
      let h : Holder := match l with | .a => .lineA | .b => .lineB
      let taken : Dev := { s.dev with ctl := ctl.setLine l { r with taken := r.level } }
      (r.level = r.taken ∨ s.dev.clock < r.changed + 10000 →
        exec (.stopLineTaken l) s = .next (s.ended s.dev)) ∧
      (r.level ≠ r.taken → r.changed + 10000 ≤ s.dev.clock → ∃ d, exec (.stopLineTaken l) s = .next (s.ended d) ∧
        (r.level = .asserted → Dev.Joins h 0 taken d) ∧ (r.level = .released → Dev.Leaves h taken d)))

/-! ## The Show Store, power-on and RESET -/

/-- O56. SHOW.SAVE writes the show data and SAVE_COMPLETE tests it by its sum; SHOW.LOAD and SHOW.ERASE replace the
show data and clear the runtime state. Cites 10 R177, 10 R178, 10 R179, 10 R180, 02 R17, 03 R45, 03 R49, 04 R65,
04 R78, 05 R97, 06 R117, 07 R137. The model's choices in it: log 4 (an event commanded outside its condition
changes nothing of its own); log 9 (which hand-overs a stop or an ARM withdraws or takes first); log 19 (the
image as a copy with its sum); log 22 (when the stop record is handed over); log 26 (the order of notices, of
slots and of equal times inside one command); log 29 (the free sum of a save the part ends itself); log 31
(which hand-over sets an output's camera). -/
def Obligations.SaveLoadAndErase : Prop :=
  ∀ (tag : Nat) (s : State),
    let st := s.dev.ctl.state
    let store := s.dev.store
    let refused (c : Instr) (x : Code) : Prop := exec c s = .next (s.replied tag (.no x) (s.dev.takeRequest c))
    (st = .countIn ∨ st = .running → refused (.showSave tag) .state) ∧
    (st ≠ .countIn → st ≠ .running → store.writing = true → refused (.showSave tag) .busy) ∧
    (st ≠ .countIn → st ≠ .running → store.writing = false →
      ∃ d, exec (.showSave tag) s = .next (s.replied tag (.ok [⟨"", [.word "SAVING"]⟩]) d) ∧
        Dev.Keeps [.store, .hand] s.dev d ∧ d.store =
          { began := some s.dev.clock
            cond := .invalid
            sum := none
            image := s.dev.data }) ∧
    (∀ sum,
      (store.writing = false → exec (.saveComplete sum) s = .next (s.ended s.dev)) ∧
      (store.writing = true → ∃ d, exec (.saveComplete sum) s = .next (s.ended d) ∧
        Dev.Keeps [.store, .notices, .fresh] s.dev d ∧ d.fresh = s.dev.fresh + 1 ∧
        let valid := sum = 0#16
        d.store =
          { began := none
            cond := if valid then .valid else .invalid
            sum := some sum
            image := store.image } ∧
        Dev.Raised [if valid then .store .saved .valid s.dev.clock else .store .failed .invalid s.dev.clock] s.dev d)) ∧
    (∀ t, store.began = some t → t + 4000000 ≤ s.dev.clock → s.pending = [] →
      (∃ c, s.dev.nextEvent = some c ∧ step s = exec c s) ∧
      (Dev.nextEvent { s.dev with store := { store with began := none } } = none →
        step s = exec (.saveComplete (Config.imageSum s.dev.fresh)) s)) ∧
    (∀ load : Bool,
      let c : Instr := if load then .showLoad tag else .showErase tag
      (st ≠ .dark → st ≠ .done → refused c .state) ∧
      (st = .dark ∨ st = .done → store.writing = true → refused c .busy) ∧
      (st = .dark ∨ st = .done → store.writing = false → load = true → store.cond = .invalid → refused c .notFound) ∧
      (st = .dark ∨ st = .done → store.writing = false → (load = true → store.cond = .valid) → ∃ d,
        exec c s = .next (s.replied tag (.ok [⟨"", [.word (if load then "LOADED" else "ERASED")]⟩]) d) ∧
        Dev.Keeps [.data, .eng, .arb, .lanes, .sched, .rooms, .slots, .link, .video, .ctl, .store, .handovers,
          .notices, .hand, .port] s.dev d ∧
        d.port.rest = { s.dev.port.rest with record := d.ctl.record, recordChanged := true } ∧
        d.handovers = (s.dev.handovers.filter fun x => !voidAtStop x) ++
          (if st = .dark then [] else [.lanesStateChange .dark]) ∧
        d.data = (if load then store.image else ShowData.default) ∧
        d.store = (if load then store else { store with cond := .invalid, sum := none }) ∧
        d.eng = .start ∧ d.arb = .start ∧ d.sched = ⟨[], [], none⟩ ∧
        (∀ l : Fin 8, d.lanes[l] = ⟨.opened, none, [], s.dev.lanes[l].out⟩) ∧
        (∀ r : Fin 4, d.rooms[r] = align d.data.rooms[r] d.data.std.frame) ∧
        (∀ i, d.slot i =
          ⟨(s.dev.slot i).present, none, (s.dev.slot i).confirmed, .idle, none, none, false, false, none⟩) ∧
        d.link = { s.dev.link with queue := [], stopPending := none, clears := [] } ∧
        d.video.note = none ∧
        (d.data.std = s.dev.data.std →
          d.video = { s.dev.video with note := none, outs := d.video.outs }) ∧
        (d.data.std ≠ s.dev.data.std →
          d.video =
            { s.dev.video with
              note := none
              origin := s.dev.clock
              nextFrame := 0
              cam1 := ⟨false, 51, none⟩
              cam2 := ⟨false, 51, none⟩
              store := []
              tags := []
              lastPos := none
              outs := d.video.outs
              blink := none }) ∧
        (∀ o : Fin 6,
          let out := s.dev.video.outs[o]
          d.video.outs[o] =
            { out with
              next := if d.data.outs[o].source = s.dev.data.outs[o].source then out.next else none
              flash := if d.data.std = s.dev.data.std then out.flash else 0 }) ∧
        d.ctl = { s.dev.ctl with state := .dark, armed := none, count := 0 } ∧
        Dev.Raised ((([0, 1, 2, 3] : List (Fin 4)).filterMap fun r =>
            if d.rooms[r].short = 0 then none else some (.align r d.data.rooms[r] d.rooms[r])) ++
          (if st = .dark then []
          else [.showCtl (if load then .load else .erase) (some .done) .dark s.dev.ctl.episode none s.dev.clock]))
          s.dev d))

/-- O57. POWER_ON starts every block from the image or the defaults, DARK or STOPPED by the stop lines; RESET
restarts the runtime state with a new epoch. Cites 02 R17, 03 R45, 03 R49, 04 R78, 05 R97, 06 R117, 07 R137, 09
R152, 09 R163, 09 R167, 10 R181, 10 R182. The model's choices in it: log 8 (one START notice, with the state
before it); log 9 (which hand-overs a stop or an ARM withdraws or takes first); log 19 (the image as a copy with
its sum); log 20 (what an output shows before its first frame and at the entry into STOPPED); log 25 (the pit
line and a cut save at power-on); log 26 (the order of notices, of slots and of equal times inside one command). -/
def Obligations.PowerOnAndReset : Prop :=
  ∀ s : State,
    let ctl := s.dev.ctl
    let lines : List Holder := (if ctl.lineA.level = .asserted then [.lineA] else []) ++
      (if ctl.lineB.level = .asserted then [.lineB] else [])
    let starts (old : Control) (a b : Dev) : Prop :=
      let ep := if old.episode = 65535 then 1 else old.episode + 1
      b.ctl.holders = lines ∧ b.ctl.armed = none ∧ b.ctl.count = 0 ∧
        b.ctl.lineA.taken = ctl.lineA.level ∧ b.ctl.lineB.taken = ctl.lineB.level ∧
        b.ctl.lineA.level = ctl.lineA.level ∧ b.ctl.lineB.level = ctl.lineB.level ∧
        (lines = [] → b.ctl.state = .dark ∧ b.ctl.episode = old.episode ∧ b.ctl.first = old.first ∧
          b.ctl.reason = old.reason ∧ b.ctl.stopPos = old.stopPos ∧ b.ctl.stopTime = old.stopTime ∧
          b.link.stopPending = none ∧ b.handovers = []) ∧
        (∀ h hs, lines = h :: hs → b.ctl.state = .stopped ∧ b.ctl.episode = ep ∧ b.ctl.first = some h ∧
          b.ctl.reason = 0 ∧ b.ctl.stopPos = none ∧ b.ctl.stopTime = some a.clock ∧
          b.link.stopPending = some ⟨ep, 0⟩ ∧
          b.handovers = [.cueStop, .slotStop, .lanesStateChange .stopped, .videoStopPage])
    let started (before : Option ShowState) (b : Dev) : Notice :=
      .showCtl .start before b.ctl.state b.ctl.episode none b.clock
    let runtime (b : Dev) : Prop := b.eng = .start ∧ b.arb = .start ∧ b.sched = ⟨[], [], none⟩ ∧ b.video.note = none ∧
      (∀ i, b.slot i = ⟨false, none, none, .idle, none, none, false, false, none⟩) ∧
      b.link.queue = [] ∧ b.link.clears = [] ∧ b.link.rotation = 0 ∧ b.link.lastPoll = none ∧
      b.link.lastBeacon = none ∧ (∀ n : Fin 16, b.station n = ⟨.absent, 0, 0, 0, none, 0⟩) ∧
      b.port.missed = [] ∧ b.port.low = [] ∧ b.port.discarded = 0 ∧ b.port.mask = [.beat, .bar, .tap] ∧
      b.port.recordChanged = true ∧ b.port.record = b.ctl.record
    (∃ d, exec .powerOn s = .next (s.ended d) ∧ runtime d ∧ starts Control.start d d ∧ d.clock = 0 ∧
      (let valid := s.dev.store.sum = some 0#16
       d.data = (if valid then s.dev.store.image else ShowData.default) ∧
       d.store = { s.dev.store with began := none, cond := if valid then .valid else .invalid }) ∧
      (∀ l : Fin 8, d.lanes[l] = ⟨.opened, none, [], none⟩) ∧
      (∀ r : Fin 4, d.rooms[r] = align d.data.rooms[r] d.data.std.frame) ∧
      d.video = { Video.start with outs := d.video.outs } ∧
      (∀ o : Fin 6, d.video.outs[o] =
        ⟨if d.data.outs[o].source = .cam2 then .cam2 else .cam1, none, 0, ⟨.black, none, []⟩⟩) ∧
      d.link.line = none ∧ d.link.epoch = 1 ∧ d.port.lines = [] ∧ d.port.arriving = [] ∧ d.port.lost = 0 ∧
      d.port.lostAt = 0 ∧ d.port.lastLost = false ∧ d.port.inHand = none ∧ d.port.reply = none ∧ d.port.sending = none ∧
      d.port.high = (if s.dev.store.sum = some 0#16 then [] else [.store .invalid .invalid 0]) ++ [started none d] ++
        (([0, 1, 2, 3] : List (Fin 4)).filterMap fun r =>
          if d.rooms[r].short = 0 then none else some (.align r d.data.rooms[r] d.rooms[r]))) ∧
    (∀ tag,
      (s.dev.store.writing = true →
        exec (.reset tag) s = .next (s.replied tag (.no .busy) (s.dev.takeRequest (.reset tag)))) ∧
      (s.dev.store.writing = false → ∃ d,
        exec (.reset tag) s = .next (s.replied tag (.ok [⟨"", [.word "RESET"]⟩, ⟨"", [.num d.link.epoch]⟩]) d) ∧
        runtime d ∧ starts ctl s.dev d ∧ d.clock = s.dev.clock ∧ d.data = s.dev.data ∧ d.store = s.dev.store ∧
        d.rooms = s.dev.rooms ∧ (∀ l : Fin 8, d.lanes[l] = ⟨.opened, none, [], s.dev.lanes[l].out⟩) ∧
        d.video = { s.dev.video with note := none } ∧
        d.link.line = s.dev.link.line ∧
        d.link.epoch = (if s.dev.link.epoch = 255 then 1 else s.dev.link.epoch + 1) ∧
        d.port.lines = s.dev.port.lines ∧ d.port.arriving = s.dev.port.arriving ∧ d.port.lost = s.dev.port.lost ∧
        d.port.lostAt = s.dev.port.lostAt ∧ d.port.lastLost = s.dev.port.lastLost ∧
        d.port.inHand = (s.dev.takeRequest (.reset tag)).port.inHand ∧ d.port.reply = s.dev.port.reply ∧
        d.port.sending = s.dev.port.sending ∧ d.port.high = [started (some ctl.state) d]))

/-! ## Invariants -/

/-- O58. Every step keeps the runtime invariants: notice queues, lanes, stop holders, due time, pin, slots with the
patch queue, SEND stages, store and cameras. Cites 02 R17, 03 R59, 04 R70, 04 R74, 05 R84, 06 R102, 06 R114, 08
R142, 09 R151, 10 R172, 10 R177. The model's choices in it: log 19 (the image as a copy with its sum); log 31
(which hand-over sets an output's camera). -/
def Obligations.EveryStepKeepsTheRuntimeInvariants : Prop :=
  ∀ s t : State, s.dev.Sound → step s = .next t → t.dev.Sound

/-- O59. Every step keeps the tables of the show data and the image in order and in range, and P in the device range
and, while playing, in its entry's limits. Cites 01 R1, 01 R2, 01 R11, 02 R17, 02 R26, 02 R39, 03 R45, 04 R62,
05 R79. The model's choices in it: log 19 (the image as a copy with its sum); log 31 (which hand-over sets an
output's camera). -/
def Obligations.EveryStepKeepsTheTables : Prop :=
  ∀ s t : State, s.dev.Sound → s.dev.tablesOk → step s = .next t → t.dev.tablesOk

/-- O60. State.reset has every invariant, an empty queue, clock 0, the show DARK, the engine IDLE with P 500 000, an
INVALID image (log 7) and no hand-over. Cites 00_scope.md, 02 R17, 05 R97, 06 R117, 07 R137, 09 R167, 10 R181.
The model's choices in it: log 7 (which power-on State.reset is). -/
def Obligations.ResetHasTheInvariantsAndStartValues : Prop :=
  let d := State.reset.dev
  State.reset.pending = [] ∧ d.Sound ∧ d.tablesOk ∧ d.clock = 0 ∧ d.ctl.state = .dark ∧ d.ctl.holders = [] ∧
  d.ctl.episode = 0 ∧ d.eng.st = .idle ∧ d.eng.period = 500000 ∧ d.eng.due = none ∧ d.eng.pos = none ∧
  d.arb.focus = none ∧ (∀ i, (d.slot i).req = .idle ∧ (d.slot i).present = false) ∧
  (∀ n, (d.station n).state = .absent) ∧ d.link.epoch = 1 ∧ d.data = .default ∧ d.store.cond = .invalid ∧
  d.handovers = []
end

