-- ==== Sys2Proof/Laws/State.lean ====
section
/-! SUPPORT. One lemma per field per update of `Dev`, each true by `rfl`, and the update of the whole state. -/

namespace Sys2Proof.Machine

/-! ### `Dev.setClock` -/

@[simp] theorem setClock_clock (d : Dev) (x : Time) : (d.setClock x).clock = x := rfl
@[simp] theorem setClock_fresh (d : Dev) (x : Time) : (d.setClock x).fresh = d.fresh := rfl
@[simp] theorem setClock_data (d : Dev) (x : Time) : (d.setClock x).data = d.data := rfl
@[simp] theorem setClock_eng (d : Dev) (x : Time) : (d.setClock x).eng = d.eng := rfl
@[simp] theorem setClock_arb (d : Dev) (x : Time) : (d.setClock x).arb = d.arb := rfl
@[simp] theorem setClock_rooms (d : Dev) (x : Time) : (d.setClock x).rooms = d.rooms := rfl
@[simp] theorem setClock_lanes (d : Dev) (x : Time) : (d.setClock x).lanes = d.lanes := rfl
@[simp] theorem setClock_sched (d : Dev) (x : Time) : (d.setClock x).sched = d.sched := rfl
@[simp] theorem setClock_slots (d : Dev) (x : Time) : (d.setClock x).slots = d.slots := rfl
@[simp] theorem setClock_link (d : Dev) (x : Time) : (d.setClock x).link = d.link := rfl
@[simp] theorem setClock_video (d : Dev) (x : Time) : (d.setClock x).video = d.video := rfl
@[simp] theorem setClock_ctl (d : Dev) (x : Time) : (d.setClock x).ctl = d.ctl := rfl
@[simp] theorem setClock_port (d : Dev) (x : Time) : (d.setClock x).port = d.port := rfl
@[simp] theorem setClock_store (d : Dev) (x : Time) : (d.setClock x).store = d.store := rfl
@[simp] theorem setClock_handovers (d : Dev) (x : Time) : (d.setClock x).handovers = d.handovers := rfl

/-! ### `Dev.setFresh` -/

@[simp] theorem setFresh_clock (d : Dev) (x : Nat) : (d.setFresh x).clock = d.clock := rfl
@[simp] theorem setFresh_fresh (d : Dev) (x : Nat) : (d.setFresh x).fresh = x := rfl
@[simp] theorem setFresh_data (d : Dev) (x : Nat) : (d.setFresh x).data = d.data := rfl
@[simp] theorem setFresh_eng (d : Dev) (x : Nat) : (d.setFresh x).eng = d.eng := rfl
@[simp] theorem setFresh_arb (d : Dev) (x : Nat) : (d.setFresh x).arb = d.arb := rfl
@[simp] theorem setFresh_rooms (d : Dev) (x : Nat) : (d.setFresh x).rooms = d.rooms := rfl
@[simp] theorem setFresh_lanes (d : Dev) (x : Nat) : (d.setFresh x).lanes = d.lanes := rfl
@[simp] theorem setFresh_sched (d : Dev) (x : Nat) : (d.setFresh x).sched = d.sched := rfl
@[simp] theorem setFresh_slots (d : Dev) (x : Nat) : (d.setFresh x).slots = d.slots := rfl
@[simp] theorem setFresh_link (d : Dev) (x : Nat) : (d.setFresh x).link = d.link := rfl
@[simp] theorem setFresh_video (d : Dev) (x : Nat) : (d.setFresh x).video = d.video := rfl
@[simp] theorem setFresh_ctl (d : Dev) (x : Nat) : (d.setFresh x).ctl = d.ctl := rfl
@[simp] theorem setFresh_port (d : Dev) (x : Nat) : (d.setFresh x).port = d.port := rfl
@[simp] theorem setFresh_store (d : Dev) (x : Nat) : (d.setFresh x).store = d.store := rfl
@[simp] theorem setFresh_handovers (d : Dev) (x : Nat) : (d.setFresh x).handovers = d.handovers := rfl

/-! ### `Dev.setData` -/

@[simp] theorem setData_clock (d : Dev) (x : ShowData) : (d.setData x).clock = d.clock := rfl
@[simp] theorem setData_fresh (d : Dev) (x : ShowData) : (d.setData x).fresh = d.fresh := rfl
@[simp] theorem setData_data (d : Dev) (x : ShowData) : (d.setData x).data = x := rfl
@[simp] theorem setData_eng (d : Dev) (x : ShowData) : (d.setData x).eng = d.eng := rfl
@[simp] theorem setData_arb (d : Dev) (x : ShowData) : (d.setData x).arb = d.arb := rfl
@[simp] theorem setData_rooms (d : Dev) (x : ShowData) : (d.setData x).rooms = d.rooms := rfl
@[simp] theorem setData_lanes (d : Dev) (x : ShowData) : (d.setData x).lanes = d.lanes := rfl
@[simp] theorem setData_sched (d : Dev) (x : ShowData) : (d.setData x).sched = d.sched := rfl
@[simp] theorem setData_slots (d : Dev) (x : ShowData) : (d.setData x).slots = d.slots := rfl
@[simp] theorem setData_link (d : Dev) (x : ShowData) : (d.setData x).link = d.link := rfl
@[simp] theorem setData_video (d : Dev) (x : ShowData) : (d.setData x).video = d.video := rfl
@[simp] theorem setData_ctl (d : Dev) (x : ShowData) : (d.setData x).ctl = d.ctl := rfl
@[simp] theorem setData_port (d : Dev) (x : ShowData) : (d.setData x).port = d.port := rfl
@[simp] theorem setData_store (d : Dev) (x : ShowData) : (d.setData x).store = d.store := rfl
@[simp] theorem setData_handovers (d : Dev) (x : ShowData) : (d.setData x).handovers = d.handovers := rfl

/-! ### `Dev.setEng` -/

@[simp] theorem setEng_clock (d : Dev) (x : Engine) : (d.setEng x).clock = d.clock := rfl
@[simp] theorem setEng_fresh (d : Dev) (x : Engine) : (d.setEng x).fresh = d.fresh := rfl
@[simp] theorem setEng_data (d : Dev) (x : Engine) : (d.setEng x).data = d.data := rfl
@[simp] theorem setEng_eng (d : Dev) (x : Engine) : (d.setEng x).eng = x := rfl
@[simp] theorem setEng_arb (d : Dev) (x : Engine) : (d.setEng x).arb = d.arb := rfl
@[simp] theorem setEng_rooms (d : Dev) (x : Engine) : (d.setEng x).rooms = d.rooms := rfl
@[simp] theorem setEng_lanes (d : Dev) (x : Engine) : (d.setEng x).lanes = d.lanes := rfl
@[simp] theorem setEng_sched (d : Dev) (x : Engine) : (d.setEng x).sched = d.sched := rfl
@[simp] theorem setEng_slots (d : Dev) (x : Engine) : (d.setEng x).slots = d.slots := rfl
@[simp] theorem setEng_link (d : Dev) (x : Engine) : (d.setEng x).link = d.link := rfl
@[simp] theorem setEng_video (d : Dev) (x : Engine) : (d.setEng x).video = d.video := rfl
@[simp] theorem setEng_ctl (d : Dev) (x : Engine) : (d.setEng x).ctl = d.ctl := rfl
@[simp] theorem setEng_port (d : Dev) (x : Engine) : (d.setEng x).port = d.port := rfl
@[simp] theorem setEng_store (d : Dev) (x : Engine) : (d.setEng x).store = d.store := rfl
@[simp] theorem setEng_handovers (d : Dev) (x : Engine) : (d.setEng x).handovers = d.handovers := rfl

/-! ### `Dev.setArb` -/

@[simp] theorem setArb_clock (d : Dev) (x : Arbiter) : (d.setArb x).clock = d.clock := rfl
@[simp] theorem setArb_fresh (d : Dev) (x : Arbiter) : (d.setArb x).fresh = d.fresh := rfl
@[simp] theorem setArb_data (d : Dev) (x : Arbiter) : (d.setArb x).data = d.data := rfl
@[simp] theorem setArb_eng (d : Dev) (x : Arbiter) : (d.setArb x).eng = d.eng := rfl
@[simp] theorem setArb_arb (d : Dev) (x : Arbiter) : (d.setArb x).arb = x := rfl
@[simp] theorem setArb_rooms (d : Dev) (x : Arbiter) : (d.setArb x).rooms = d.rooms := rfl
@[simp] theorem setArb_lanes (d : Dev) (x : Arbiter) : (d.setArb x).lanes = d.lanes := rfl
@[simp] theorem setArb_sched (d : Dev) (x : Arbiter) : (d.setArb x).sched = d.sched := rfl
@[simp] theorem setArb_slots (d : Dev) (x : Arbiter) : (d.setArb x).slots = d.slots := rfl
@[simp] theorem setArb_link (d : Dev) (x : Arbiter) : (d.setArb x).link = d.link := rfl
@[simp] theorem setArb_video (d : Dev) (x : Arbiter) : (d.setArb x).video = d.video := rfl
@[simp] theorem setArb_ctl (d : Dev) (x : Arbiter) : (d.setArb x).ctl = d.ctl := rfl
@[simp] theorem setArb_port (d : Dev) (x : Arbiter) : (d.setArb x).port = d.port := rfl
@[simp] theorem setArb_store (d : Dev) (x : Arbiter) : (d.setArb x).store = d.store := rfl
@[simp] theorem setArb_handovers (d : Dev) (x : Arbiter) : (d.setArb x).handovers = d.handovers := rfl

/-! ### `Dev.setRooms` -/

@[simp] theorem setRooms_clock (d : Dev) (x : Vector RoomRun 4) : (d.setRooms x).clock = d.clock := rfl
@[simp] theorem setRooms_fresh (d : Dev) (x : Vector RoomRun 4) : (d.setRooms x).fresh = d.fresh := rfl
@[simp] theorem setRooms_data (d : Dev) (x : Vector RoomRun 4) : (d.setRooms x).data = d.data := rfl
@[simp] theorem setRooms_eng (d : Dev) (x : Vector RoomRun 4) : (d.setRooms x).eng = d.eng := rfl
@[simp] theorem setRooms_arb (d : Dev) (x : Vector RoomRun 4) : (d.setRooms x).arb = d.arb := rfl
@[simp] theorem setRooms_rooms (d : Dev) (x : Vector RoomRun 4) : (d.setRooms x).rooms = x := rfl
@[simp] theorem setRooms_lanes (d : Dev) (x : Vector RoomRun 4) : (d.setRooms x).lanes = d.lanes := rfl
@[simp] theorem setRooms_sched (d : Dev) (x : Vector RoomRun 4) : (d.setRooms x).sched = d.sched := rfl
@[simp] theorem setRooms_slots (d : Dev) (x : Vector RoomRun 4) : (d.setRooms x).slots = d.slots := rfl
@[simp] theorem setRooms_link (d : Dev) (x : Vector RoomRun 4) : (d.setRooms x).link = d.link := rfl
@[simp] theorem setRooms_video (d : Dev) (x : Vector RoomRun 4) : (d.setRooms x).video = d.video := rfl
@[simp] theorem setRooms_ctl (d : Dev) (x : Vector RoomRun 4) : (d.setRooms x).ctl = d.ctl := rfl
@[simp] theorem setRooms_port (d : Dev) (x : Vector RoomRun 4) : (d.setRooms x).port = d.port := rfl
@[simp] theorem setRooms_store (d : Dev) (x : Vector RoomRun 4) : (d.setRooms x).store = d.store := rfl
@[simp] theorem setRooms_handovers (d : Dev) (x : Vector RoomRun 4) : (d.setRooms x).handovers = d.handovers := rfl

/-! ### `Dev.setLanes` -/

@[simp] theorem setLanes_clock (d : Dev) (x : Vector LaneRun 8) : (d.setLanes x).clock = d.clock := rfl
@[simp] theorem setLanes_fresh (d : Dev) (x : Vector LaneRun 8) : (d.setLanes x).fresh = d.fresh := rfl
@[simp] theorem setLanes_data (d : Dev) (x : Vector LaneRun 8) : (d.setLanes x).data = d.data := rfl
@[simp] theorem setLanes_eng (d : Dev) (x : Vector LaneRun 8) : (d.setLanes x).eng = d.eng := rfl
@[simp] theorem setLanes_arb (d : Dev) (x : Vector LaneRun 8) : (d.setLanes x).arb = d.arb := rfl
@[simp] theorem setLanes_rooms (d : Dev) (x : Vector LaneRun 8) : (d.setLanes x).rooms = d.rooms := rfl
@[simp] theorem setLanes_lanes (d : Dev) (x : Vector LaneRun 8) : (d.setLanes x).lanes = x := rfl
@[simp] theorem setLanes_sched (d : Dev) (x : Vector LaneRun 8) : (d.setLanes x).sched = d.sched := rfl
@[simp] theorem setLanes_slots (d : Dev) (x : Vector LaneRun 8) : (d.setLanes x).slots = d.slots := rfl
@[simp] theorem setLanes_link (d : Dev) (x : Vector LaneRun 8) : (d.setLanes x).link = d.link := rfl
@[simp] theorem setLanes_video (d : Dev) (x : Vector LaneRun 8) : (d.setLanes x).video = d.video := rfl
@[simp] theorem setLanes_ctl (d : Dev) (x : Vector LaneRun 8) : (d.setLanes x).ctl = d.ctl := rfl
@[simp] theorem setLanes_port (d : Dev) (x : Vector LaneRun 8) : (d.setLanes x).port = d.port := rfl
@[simp] theorem setLanes_store (d : Dev) (x : Vector LaneRun 8) : (d.setLanes x).store = d.store := rfl
@[simp] theorem setLanes_handovers (d : Dev) (x : Vector LaneRun 8) : (d.setLanes x).handovers = d.handovers := rfl

/-! ### `Dev.setSched` -/

@[simp] theorem setSched_clock (d : Dev) (x : Sched) : (d.setSched x).clock = d.clock := rfl
@[simp] theorem setSched_fresh (d : Dev) (x : Sched) : (d.setSched x).fresh = d.fresh := rfl
@[simp] theorem setSched_data (d : Dev) (x : Sched) : (d.setSched x).data = d.data := rfl
@[simp] theorem setSched_eng (d : Dev) (x : Sched) : (d.setSched x).eng = d.eng := rfl
@[simp] theorem setSched_arb (d : Dev) (x : Sched) : (d.setSched x).arb = d.arb := rfl
@[simp] theorem setSched_rooms (d : Dev) (x : Sched) : (d.setSched x).rooms = d.rooms := rfl
@[simp] theorem setSched_lanes (d : Dev) (x : Sched) : (d.setSched x).lanes = d.lanes := rfl
@[simp] theorem setSched_sched (d : Dev) (x : Sched) : (d.setSched x).sched = x := rfl
@[simp] theorem setSched_slots (d : Dev) (x : Sched) : (d.setSched x).slots = d.slots := rfl
@[simp] theorem setSched_link (d : Dev) (x : Sched) : (d.setSched x).link = d.link := rfl
@[simp] theorem setSched_video (d : Dev) (x : Sched) : (d.setSched x).video = d.video := rfl
@[simp] theorem setSched_ctl (d : Dev) (x : Sched) : (d.setSched x).ctl = d.ctl := rfl
@[simp] theorem setSched_port (d : Dev) (x : Sched) : (d.setSched x).port = d.port := rfl
@[simp] theorem setSched_store (d : Dev) (x : Sched) : (d.setSched x).store = d.store := rfl
@[simp] theorem setSched_handovers (d : Dev) (x : Sched) : (d.setSched x).handovers = d.handovers := rfl

/-! ### `Dev.setSlots` -/

@[simp] theorem setSlots_clock (d : Dev) (x : Vector SlotRun 64) : (d.setSlots x).clock = d.clock := rfl
@[simp] theorem setSlots_fresh (d : Dev) (x : Vector SlotRun 64) : (d.setSlots x).fresh = d.fresh := rfl
@[simp] theorem setSlots_data (d : Dev) (x : Vector SlotRun 64) : (d.setSlots x).data = d.data := rfl
@[simp] theorem setSlots_eng (d : Dev) (x : Vector SlotRun 64) : (d.setSlots x).eng = d.eng := rfl
@[simp] theorem setSlots_arb (d : Dev) (x : Vector SlotRun 64) : (d.setSlots x).arb = d.arb := rfl
@[simp] theorem setSlots_rooms (d : Dev) (x : Vector SlotRun 64) : (d.setSlots x).rooms = d.rooms := rfl
@[simp] theorem setSlots_lanes (d : Dev) (x : Vector SlotRun 64) : (d.setSlots x).lanes = d.lanes := rfl
@[simp] theorem setSlots_sched (d : Dev) (x : Vector SlotRun 64) : (d.setSlots x).sched = d.sched := rfl
@[simp] theorem setSlots_slots (d : Dev) (x : Vector SlotRun 64) : (d.setSlots x).slots = x := rfl
@[simp] theorem setSlots_link (d : Dev) (x : Vector SlotRun 64) : (d.setSlots x).link = d.link := rfl
@[simp] theorem setSlots_video (d : Dev) (x : Vector SlotRun 64) : (d.setSlots x).video = d.video := rfl
@[simp] theorem setSlots_ctl (d : Dev) (x : Vector SlotRun 64) : (d.setSlots x).ctl = d.ctl := rfl
@[simp] theorem setSlots_port (d : Dev) (x : Vector SlotRun 64) : (d.setSlots x).port = d.port := rfl
@[simp] theorem setSlots_store (d : Dev) (x : Vector SlotRun 64) : (d.setSlots x).store = d.store := rfl
@[simp] theorem setSlots_handovers (d : Dev) (x : Vector SlotRun 64) : (d.setSlots x).handovers = d.handovers := rfl

/-! ### `Dev.setLink` -/

@[simp] theorem setLink_clock (d : Dev) (x : Link) : (d.setLink x).clock = d.clock := rfl
@[simp] theorem setLink_fresh (d : Dev) (x : Link) : (d.setLink x).fresh = d.fresh := rfl
@[simp] theorem setLink_data (d : Dev) (x : Link) : (d.setLink x).data = d.data := rfl
@[simp] theorem setLink_eng (d : Dev) (x : Link) : (d.setLink x).eng = d.eng := rfl
@[simp] theorem setLink_arb (d : Dev) (x : Link) : (d.setLink x).arb = d.arb := rfl
@[simp] theorem setLink_rooms (d : Dev) (x : Link) : (d.setLink x).rooms = d.rooms := rfl
@[simp] theorem setLink_lanes (d : Dev) (x : Link) : (d.setLink x).lanes = d.lanes := rfl
@[simp] theorem setLink_sched (d : Dev) (x : Link) : (d.setLink x).sched = d.sched := rfl
@[simp] theorem setLink_slots (d : Dev) (x : Link) : (d.setLink x).slots = d.slots := rfl
@[simp] theorem setLink_link (d : Dev) (x : Link) : (d.setLink x).link = x := rfl
@[simp] theorem setLink_video (d : Dev) (x : Link) : (d.setLink x).video = d.video := rfl
@[simp] theorem setLink_ctl (d : Dev) (x : Link) : (d.setLink x).ctl = d.ctl := rfl
@[simp] theorem setLink_port (d : Dev) (x : Link) : (d.setLink x).port = d.port := rfl
@[simp] theorem setLink_store (d : Dev) (x : Link) : (d.setLink x).store = d.store := rfl
@[simp] theorem setLink_handovers (d : Dev) (x : Link) : (d.setLink x).handovers = d.handovers := rfl

/-! ### `Dev.setVideo` -/

@[simp] theorem setVideo_clock (d : Dev) (x : Video) : (d.setVideo x).clock = d.clock := rfl
@[simp] theorem setVideo_fresh (d : Dev) (x : Video) : (d.setVideo x).fresh = d.fresh := rfl
@[simp] theorem setVideo_data (d : Dev) (x : Video) : (d.setVideo x).data = d.data := rfl
@[simp] theorem setVideo_eng (d : Dev) (x : Video) : (d.setVideo x).eng = d.eng := rfl
@[simp] theorem setVideo_arb (d : Dev) (x : Video) : (d.setVideo x).arb = d.arb := rfl
@[simp] theorem setVideo_rooms (d : Dev) (x : Video) : (d.setVideo x).rooms = d.rooms := rfl
@[simp] theorem setVideo_lanes (d : Dev) (x : Video) : (d.setVideo x).lanes = d.lanes := rfl
@[simp] theorem setVideo_sched (d : Dev) (x : Video) : (d.setVideo x).sched = d.sched := rfl
@[simp] theorem setVideo_slots (d : Dev) (x : Video) : (d.setVideo x).slots = d.slots := rfl
@[simp] theorem setVideo_link (d : Dev) (x : Video) : (d.setVideo x).link = d.link := rfl
@[simp] theorem setVideo_video (d : Dev) (x : Video) : (d.setVideo x).video = x := rfl
@[simp] theorem setVideo_ctl (d : Dev) (x : Video) : (d.setVideo x).ctl = d.ctl := rfl
@[simp] theorem setVideo_port (d : Dev) (x : Video) : (d.setVideo x).port = d.port := rfl
@[simp] theorem setVideo_store (d : Dev) (x : Video) : (d.setVideo x).store = d.store := rfl
@[simp] theorem setVideo_handovers (d : Dev) (x : Video) : (d.setVideo x).handovers = d.handovers := rfl

/-! ### `Dev.setCtl` -/

@[simp] theorem setCtl_clock (d : Dev) (x : Control) : (d.setCtl x).clock = d.clock := rfl
@[simp] theorem setCtl_fresh (d : Dev) (x : Control) : (d.setCtl x).fresh = d.fresh := rfl
@[simp] theorem setCtl_data (d : Dev) (x : Control) : (d.setCtl x).data = d.data := rfl
@[simp] theorem setCtl_eng (d : Dev) (x : Control) : (d.setCtl x).eng = d.eng := rfl
@[simp] theorem setCtl_arb (d : Dev) (x : Control) : (d.setCtl x).arb = d.arb := rfl
@[simp] theorem setCtl_rooms (d : Dev) (x : Control) : (d.setCtl x).rooms = d.rooms := rfl
@[simp] theorem setCtl_lanes (d : Dev) (x : Control) : (d.setCtl x).lanes = d.lanes := rfl
@[simp] theorem setCtl_sched (d : Dev) (x : Control) : (d.setCtl x).sched = d.sched := rfl
@[simp] theorem setCtl_slots (d : Dev) (x : Control) : (d.setCtl x).slots = d.slots := rfl
@[simp] theorem setCtl_link (d : Dev) (x : Control) : (d.setCtl x).link = d.link := rfl
@[simp] theorem setCtl_video (d : Dev) (x : Control) : (d.setCtl x).video = d.video := rfl
@[simp] theorem setCtl_ctl (d : Dev) (x : Control) : (d.setCtl x).ctl = x := rfl
@[simp] theorem setCtl_port (d : Dev) (x : Control) : (d.setCtl x).port = d.port := rfl
@[simp] theorem setCtl_store (d : Dev) (x : Control) : (d.setCtl x).store = d.store := rfl
@[simp] theorem setCtl_handovers (d : Dev) (x : Control) : (d.setCtl x).handovers = d.handovers := rfl

/-! ### `Dev.setPort` -/

@[simp] theorem setPort_clock (d : Dev) (x : Port) : (d.setPort x).clock = d.clock := rfl
@[simp] theorem setPort_fresh (d : Dev) (x : Port) : (d.setPort x).fresh = d.fresh := rfl
@[simp] theorem setPort_data (d : Dev) (x : Port) : (d.setPort x).data = d.data := rfl
@[simp] theorem setPort_eng (d : Dev) (x : Port) : (d.setPort x).eng = d.eng := rfl
@[simp] theorem setPort_arb (d : Dev) (x : Port) : (d.setPort x).arb = d.arb := rfl
@[simp] theorem setPort_rooms (d : Dev) (x : Port) : (d.setPort x).rooms = d.rooms := rfl
@[simp] theorem setPort_lanes (d : Dev) (x : Port) : (d.setPort x).lanes = d.lanes := rfl
@[simp] theorem setPort_sched (d : Dev) (x : Port) : (d.setPort x).sched = d.sched := rfl
@[simp] theorem setPort_slots (d : Dev) (x : Port) : (d.setPort x).slots = d.slots := rfl
@[simp] theorem setPort_link (d : Dev) (x : Port) : (d.setPort x).link = d.link := rfl
@[simp] theorem setPort_video (d : Dev) (x : Port) : (d.setPort x).video = d.video := rfl
@[simp] theorem setPort_ctl (d : Dev) (x : Port) : (d.setPort x).ctl = d.ctl := rfl
@[simp] theorem setPort_port (d : Dev) (x : Port) : (d.setPort x).port = x := rfl
@[simp] theorem setPort_store (d : Dev) (x : Port) : (d.setPort x).store = d.store := rfl
@[simp] theorem setPort_handovers (d : Dev) (x : Port) : (d.setPort x).handovers = d.handovers := rfl

/-! ### `Dev.setStore` -/

@[simp] theorem setStore_clock (d : Dev) (x : Store) : (d.setStore x).clock = d.clock := rfl
@[simp] theorem setStore_fresh (d : Dev) (x : Store) : (d.setStore x).fresh = d.fresh := rfl
@[simp] theorem setStore_data (d : Dev) (x : Store) : (d.setStore x).data = d.data := rfl
@[simp] theorem setStore_eng (d : Dev) (x : Store) : (d.setStore x).eng = d.eng := rfl
@[simp] theorem setStore_arb (d : Dev) (x : Store) : (d.setStore x).arb = d.arb := rfl
@[simp] theorem setStore_rooms (d : Dev) (x : Store) : (d.setStore x).rooms = d.rooms := rfl
@[simp] theorem setStore_lanes (d : Dev) (x : Store) : (d.setStore x).lanes = d.lanes := rfl
@[simp] theorem setStore_sched (d : Dev) (x : Store) : (d.setStore x).sched = d.sched := rfl
@[simp] theorem setStore_slots (d : Dev) (x : Store) : (d.setStore x).slots = d.slots := rfl
@[simp] theorem setStore_link (d : Dev) (x : Store) : (d.setStore x).link = d.link := rfl
@[simp] theorem setStore_video (d : Dev) (x : Store) : (d.setStore x).video = d.video := rfl
@[simp] theorem setStore_ctl (d : Dev) (x : Store) : (d.setStore x).ctl = d.ctl := rfl
@[simp] theorem setStore_port (d : Dev) (x : Store) : (d.setStore x).port = d.port := rfl
@[simp] theorem setStore_store (d : Dev) (x : Store) : (d.setStore x).store = x := rfl
@[simp] theorem setStore_handovers (d : Dev) (x : Store) : (d.setStore x).handovers = d.handovers := rfl

/-! ### `Dev.setHandovers` -/

@[simp] theorem setHandovers_clock (d : Dev) (x : List Instr) : (d.setHandovers x).clock = d.clock := rfl
@[simp] theorem setHandovers_fresh (d : Dev) (x : List Instr) : (d.setHandovers x).fresh = d.fresh := rfl
@[simp] theorem setHandovers_data (d : Dev) (x : List Instr) : (d.setHandovers x).data = d.data := rfl
@[simp] theorem setHandovers_eng (d : Dev) (x : List Instr) : (d.setHandovers x).eng = d.eng := rfl
@[simp] theorem setHandovers_arb (d : Dev) (x : List Instr) : (d.setHandovers x).arb = d.arb := rfl
@[simp] theorem setHandovers_rooms (d : Dev) (x : List Instr) : (d.setHandovers x).rooms = d.rooms := rfl
@[simp] theorem setHandovers_lanes (d : Dev) (x : List Instr) : (d.setHandovers x).lanes = d.lanes := rfl
@[simp] theorem setHandovers_sched (d : Dev) (x : List Instr) : (d.setHandovers x).sched = d.sched := rfl
@[simp] theorem setHandovers_slots (d : Dev) (x : List Instr) : (d.setHandovers x).slots = d.slots := rfl
@[simp] theorem setHandovers_link (d : Dev) (x : List Instr) : (d.setHandovers x).link = d.link := rfl
@[simp] theorem setHandovers_video (d : Dev) (x : List Instr) : (d.setHandovers x).video = d.video := rfl
@[simp] theorem setHandovers_ctl (d : Dev) (x : List Instr) : (d.setHandovers x).ctl = d.ctl := rfl
@[simp] theorem setHandovers_port (d : Dev) (x : List Instr) : (d.setHandovers x).port = d.port := rfl
@[simp] theorem setHandovers_store (d : Dev) (x : List Instr) : (d.setHandovers x).store = d.store := rfl
@[simp] theorem setHandovers_handovers (d : Dev) (x : List Instr) : (d.setHandovers x).handovers = x := rfl

/-! ### `State.after` -/

@[simp] theorem after_dev (s : State) (f : Dev → Dev) : (s.after f).dev = f s.dev := rfl
@[simp] theorem after_pending (s : State) (f : Dev → Dev) : (s.after f).pending = s.pending := rfl

end Sys2Proof.Machine
end

