-- ==== Sys2Proof/Laws/Frame.lean ====
section
/-! SUPPORT. What each shared operation may change: one lemma per operation, which says that a frame that allows the
operation's blocks does not see it. A prover peels operations off a frame with `simp`. -/

namespace Sys2Proof.Machine

variable {bs cs : List Part} {a b c d : Dev}

/-! ### Frames -/

theorem Dev.same_refl (k : Part) (a : Dev) : Dev.same k a a := by cases k <;> simp [Dev.same]

theorem Dev.same_trans {k : Part} (h : Dev.same k a b) (h' : Dev.same k b c) : Dev.same k a c := by
  cases k <;> simp_all [Dev.same]

theorem Dev.same_symm {k : Part} (h : Dev.same k a b) : Dev.same k b a := by cases k <;> simp_all [Dev.same]

@[simp] theorem keeps_refl : Dev.Keeps bs a a := fun k _ => Dev.same_refl k a

theorem keeps_trans (h : Dev.Keeps bs a b) (h' : Dev.Keeps bs b c) : Dev.Keeps bs a c :=
  fun k hk => Dev.same_trans (h k hk) (h' k hk)

theorem keeps_symm (h : Dev.Keeps bs a b) : Dev.Keeps bs b a := fun k hk => Dev.same_symm (h k hk)

theorem keeps_mono (hs : bs ⊆ cs) (h : Dev.Keeps bs a b) : Dev.Keeps cs a b := fun k hk => h k fun hk' => hk (hs hk')

/-- A frame that holds from `b` to `c` can be left out behind `b`. -/
theorem keeps_iff (h : Dev.Keeps bs b c) : Dev.Keeps bs a c ↔ Dev.Keeps bs a b :=
  ⟨fun h' => keeps_trans h' (keeps_symm h), fun h' => keeps_trans h' h⟩

theorem keeps_foldl {α : Type} (f : Dev → α → Dev) (l : List α)
    (h : ∀ d x, Dev.Keeps bs a (f d x) ↔ Dev.Keeps bs a d) : Dev.Keeps bs a (l.foldl f d) ↔ Dev.Keeps bs a d := by
  induction l generalizing d with
  | nil => exact Iff.rfl
  | cons x xs ih => exact (ih (d := f d x)).trans (h d x)

/-! ### One block -/

@[simp] theorem keeps_setClock {x : Time} (h : Part.clock ∈ bs) : Dev.Keeps bs a (d.setClock x) ↔ Dev.Keeps bs a d :=
  keeps_iff fun k hk => by cases k <;> first | (exact absurd h hk) | simp [Dev.same]

@[simp] theorem keeps_setFresh {x : Nat} (h : Part.fresh ∈ bs) : Dev.Keeps bs a (d.setFresh x) ↔ Dev.Keeps bs a d :=
  keeps_iff fun k hk => by cases k <;> first | (exact absurd h hk) | simp [Dev.same]

@[simp] theorem keeps_setData {x : ShowData} (h : Part.data ∈ bs) : Dev.Keeps bs a (d.setData x) ↔ Dev.Keeps bs a d :=
  keeps_iff fun k hk => by cases k <;> first | (exact absurd h hk) | simp [Dev.same]

@[simp] theorem keeps_setEng {x : Engine} (h : Part.eng ∈ bs) : Dev.Keeps bs a (d.setEng x) ↔ Dev.Keeps bs a d :=
  keeps_iff fun k hk => by cases k <;> first | (exact absurd h hk) | simp [Dev.same]

@[simp] theorem keeps_setArb {x : Arbiter} (h : Part.arb ∈ bs) : Dev.Keeps bs a (d.setArb x) ↔ Dev.Keeps bs a d :=
  keeps_iff fun k hk => by cases k <;> first | (exact absurd h hk) | simp [Dev.same]

@[simp] theorem keeps_setRooms {x : Vector RoomRun 4} (h : Part.rooms ∈ bs) : Dev.Keeps bs a (d.setRooms x) ↔ Dev.Keeps bs a d :=
  keeps_iff fun k hk => by cases k <;> first | (exact absurd h hk) | simp [Dev.same]

@[simp] theorem keeps_setLanes {x : Vector LaneRun 8} (h : Part.lanes ∈ bs) : Dev.Keeps bs a (d.setLanes x) ↔ Dev.Keeps bs a d :=
  keeps_iff fun k hk => by cases k <;> first | (exact absurd h hk) | simp [Dev.same]

@[simp] theorem keeps_setSched {x : Sched} (h : Part.sched ∈ bs) : Dev.Keeps bs a (d.setSched x) ↔ Dev.Keeps bs a d :=
  keeps_iff fun k hk => by cases k <;> first | (exact absurd h hk) | simp [Dev.same]

@[simp] theorem keeps_setSlots {x : Vector SlotRun 64} (h : Part.slots ∈ bs) : Dev.Keeps bs a (d.setSlots x) ↔ Dev.Keeps bs a d :=
  keeps_iff fun k hk => by cases k <;> first | (exact absurd h hk) | simp [Dev.same]

@[simp] theorem keeps_setLink {x : Link} (h : Part.link ∈ bs) : Dev.Keeps bs a (d.setLink x) ↔ Dev.Keeps bs a d :=
  keeps_iff fun k hk => by cases k <;> first | (exact absurd h hk) | simp [Dev.same]

@[simp] theorem keeps_setVideo {x : Video} (h : Part.video ∈ bs) : Dev.Keeps bs a (d.setVideo x) ↔ Dev.Keeps bs a d :=
  keeps_iff fun k hk => by cases k <;> first | (exact absurd h hk) | simp [Dev.same]

@[simp] theorem keeps_setCtl {x : Control} (h : Part.ctl ∈ bs) : Dev.Keeps bs a (d.setCtl x) ↔ Dev.Keeps bs a d :=
  keeps_iff fun k hk => by cases k <;> first | (exact absurd h hk) | simp [Dev.same]

@[simp] theorem keeps_setStore {x : Store} (h : Part.store ∈ bs) : Dev.Keeps bs a (d.setStore x) ↔ Dev.Keeps bs a d :=
  keeps_iff fun k hk => by cases k <;> first | (exact absurd h hk) | simp [Dev.same]

@[simp] theorem keeps_setHandovers {x : List Instr} (h : Part.handovers ∈ bs) : Dev.Keeps bs a (d.setHandovers x) ↔ Dev.Keeps bs a d :=
  keeps_iff fun k hk => by cases k <;> first | (exact absurd h hk) | simp [Dev.same]

/-! ### The port's parts -/

@[simp] theorem keeps_raise {n : Notice} (h : Part.notices ∈ bs) : Dev.Keeps bs a (d.raise n) ↔ Dev.Keeps bs a d :=
  keeps_iff fun k hk => by
    cases k <;> first | (exact absurd h hk) |
      (simp only [Dev.same, Dev.raise, Port.raise, Port.miss, Port.rest]; repeat' split) <;> rfl

@[simp] theorem keeps_answer {t : Nat} {x : Answer} (h : Part.port ∈ bs) :
    Dev.Keeps bs a (d.answer t x) ↔ Dev.Keeps bs a d :=
  keeps_iff fun k hk => by cases k <;> first | (exact absurd h hk) | simp [Dev.same, Dev.answer]

@[simp] theorem keeps_takeRequest {i : Instr} (h : Part.hand ∈ bs) :
    Dev.Keeps bs a (d.takeRequest i) ↔ Dev.Keeps bs a d :=
  keeps_iff fun k hk => by
    cases k <;> first | (exact absurd h hk) |
      (simp only [Dev.same, Dev.takeRequest, Port.rest]; split) <;> simp

@[simp] theorem keeps_syncRecord (h : Part.port ∈ bs) : Dev.Keeps bs a d.syncRecord ↔ Dev.Keeps bs a d :=
  keeps_iff fun k hk => by
    cases k <;> first | (exact absurd h hk) |
      (simp only [Dev.same, Dev.syncRecord]; split) <;> simp

@[simp] theorem keeps_handRecord (h : Part.port ∈ bs) : Dev.Keeps bs a d.handRecord ↔ Dev.Keeps bs a d :=
  keeps_iff fun k hk => by cases k <;> first | (exact absurd h hk) | simp [Dev.same, Dev.handRecord]

@[simp] theorem keeps_sendNext (h : Part.port ∈ bs) (h' : Part.notices ∈ bs) :
    Dev.Keeps bs a d.sendNext ↔ Dev.Keeps bs a d :=
  keeps_iff fun k hk => by
    cases k <;> first | (exact absurd h hk) | (exact absurd h' hk) |
      (simp only [Dev.same, Dev.sendNext, Port.sendNext]; repeat' split) <;> simp_all

/-! ### Notices and hand-overs -/

@[simp] theorem keeps_raiseAll {ns : List Notice} (h0 : Part.notices ∈ bs) :
    Dev.Keeps bs a (d.raiseAll ns) ↔ Dev.Keeps bs a d := by
  rw [Dev.raiseAll]; exact keeps_foldl _ _ fun d x => by simp [*]

@[simp] theorem keeps_hand {cs : List Instr} (h0 : Part.handovers ∈ bs) :
    Dev.Keeps bs a (d.hand cs) ↔ Dev.Keeps bs a d := by
  simp [Dev.hand, *]

@[simp] theorem keeps_take {c : Instr} (h0 : Part.handovers ∈ bs) :
    Dev.Keeps bs a (d.take c) ↔ Dev.Keeps bs a d := by
  simp [Dev.take, *]

@[simp] theorem keeps_withdraw {p : Instr → Bool} (h0 : Part.handovers ∈ bs) :
    Dev.Keeps bs a (d.withdraw p) ↔ Dev.Keeps bs a d := by
  simp [Dev.withdraw, *]

/-! ### Records of the tables -/

@[simp] theorem keeps_updSlot {i : SlotId} {f : SlotRun → SlotRun} (h0 : Part.slots ∈ bs) :
    Dev.Keeps bs a (d.updSlot i f) ↔ Dev.Keeps bs a d := by
  simp [Dev.updSlot, *]

@[simp] theorem keeps_updStation {n : Fin 16} {f : Station → Station} (h0 : Part.link ∈ bs) :
    Dev.Keeps bs a (d.updStation n f) ↔ Dev.Keeps bs a d := by
  simp [Dev.updStation, *]

@[simp] theorem keeps_addStale {n : Fin 16} (h0 : Part.link ∈ bs) :
    Dev.Keeps bs a (d.addStale n) ↔ Dev.Keeps bs a d := by
  simp [Dev.addStale, *]

@[simp] theorem keeps_updSrc {x : Src} {f : SrcRun → SrcRun} (h0 : Part.arb ∈ bs) :
    Dev.Keeps bs a (d.updSrc x f) ↔ Dev.Keeps bs a d := by
  simp [Dev.updSrc, *]

@[simp] theorem keeps_updLane {l : Fin 8} {f : LaneRun → LaneRun} (h0 : Part.lanes ∈ bs) :
    Dev.Keeps bs a (d.updLane l f) ↔ Dev.Keeps bs a d := by
  simp [Dev.updLane, *]

/-! ### Beat Engine -/

@[simp] theorem keeps_putBeat {t : Time} {r : Bool} {b : BeatPlan} (h0 : Part.eng ∈ bs) (h1 : Part.handovers ∈ bs) :
    Dev.Keeps bs a (d.putBeat t r b) ↔ Dev.Keeps bs a d := by
  simp [Dev.putBeat, *]

@[simp] theorem keeps_reachActEnd (h0 : Part.eng ∈ bs) (h1 : Part.notices ∈ bs) (h2 : Part.handovers ∈ bs) :
    Dev.Keeps bs a d.reachActEnd ↔ Dev.Keeps bs a d := by
  simp only [Dev.reachActEnd]; repeat' split
  all_goals simp [*]

@[simp] theorem keeps_emitCount {t : Time} {r : Bool} {k : Nat} (h0 : Part.eng ∈ bs) (h1 : Part.handovers ∈ bs) :
    Dev.Keeps bs a (d.emitCount t r k) ↔ Dev.Keeps bs a d := by
  simp only [Dev.emitCount]; repeat' split
  all_goals simp [*]

@[simp] theorem keeps_emitMark {t : Time} {r : Bool} (h0 : Part.eng ∈ bs) (h1 : Part.handovers ∈ bs) :
    Dev.Keeps bs a (d.emitMark t r) ↔ Dev.Keeps bs a d := by
  simp only [Dev.emitMark]; repeat' split
  all_goals simp [*]

@[simp] theorem keeps_emitLoop {t : Time} {r : Bool} {p : Pos} (h0 : Part.eng ∈ bs) (h1 : Part.notices ∈ bs)
    (h2 : Part.handovers ∈ bs) :
    Dev.Keeps bs a (d.emitLoop t r p) ↔ Dev.Keeps bs a d := by
  simp only [Dev.emitLoop]; repeat' split
  all_goals simp [*]

@[simp] theorem keeps_emitScore {t : Time} {r : Bool} {p : Pos} {j : Nat} (h0 : Part.eng ∈ bs)
    (h1 : Part.notices ∈ bs) (h2 : Part.handovers ∈ bs) :
    Dev.Keeps bs a (d.emitScore t r p j) ↔ Dev.Keeps bs a d := by
  simp only [Dev.emitScore]; repeat' split
  all_goals simp [*]

@[simp] theorem keeps_emit {t : Time} {r : Bool} (h0 : Part.eng ∈ bs) (h1 : Part.notices ∈ bs)
    (h2 : Part.handovers ∈ bs) :
    Dev.Keeps bs a (d.emit t r) ↔ Dev.Keeps bs a d := by
  simp only [Dev.emit]; repeat' split
  all_goals simp [*]

@[simp] theorem keeps_matchBeat {t : Time} (h0 : Part.eng ∈ bs) :
    Dev.Keeps bs a (d.matchBeat t) ↔ Dev.Keeps bs a d := by
  simp only [Dev.matchBeat]; repeat' split
  all_goals simp [*]

@[simp] theorem keeps_classify {t : Time} (h0 : Part.eng ∈ bs) (h1 : Part.notices ∈ bs) (h2 : Part.handovers ∈ bs) :
    Dev.Keeps bs a (d.classify t).1 ↔ Dev.Keeps bs a d := by
  simp only [Dev.classify]; repeat' split
  all_goals simp [*]

@[simp] theorem keeps_releaseByTap {t : Time} (h0 : Part.eng ∈ bs) (h1 : Part.notices ∈ bs)
    (h2 : Part.handovers ∈ bs) :
    Dev.Keeps bs a (d.releaseByTap t).1 ↔ Dev.Keeps bs a d := by
  simp only [Dev.releaseByTap]; repeat' split
  all_goals simp [*]

@[simp] theorem keeps_engineTap {t : Time} (h0 : Part.eng ∈ bs) (h1 : Part.notices ∈ bs) (h2 : Part.handovers ∈ bs) :
    Dev.Keeps bs a (d.engineTap t).1 ↔ Dev.Keeps bs a d := by
  simp only [Dev.engineTap]; repeat' split
  all_goals simp [*]

@[simp] theorem keeps_engineGo {t : Time} (h0 : Part.eng ∈ bs) (h1 : Part.handovers ∈ bs) :
    Dev.Keeps bs a (d.engineGo t) ↔ Dev.Keeps bs a d := by
  simp only [Dev.engineGo]; repeat' split
  all_goals simp [*]

@[simp] theorem keeps_goRelease {t : Time} (h0 : Part.eng ∈ bs) (h1 : Part.notices ∈ bs) (h2 : Part.handovers ∈ bs) :
    Dev.Keeps bs a (d.goRelease t) ↔ Dev.Keeps bs a d := by
  simp [Dev.goRelease, *]

@[simp] theorem keeps_releaseVamp {e : FormEntry} {w : Nat} (h0 : Part.eng ∈ bs) (h1 : Part.notices ∈ bs) :
    Dev.Keeps bs a (d.releaseVamp e w) ↔ Dev.Keeps bs a d := by
  simp only [Dev.releaseVamp]; repeat' split
  all_goals simp [*]

@[simp] theorem keeps_beatIsDue (h0 : Part.eng ∈ bs) (h1 : Part.notices ∈ bs) (h2 : Part.handovers ∈ bs) :
    Dev.Keeps bs a d.beatIsDue ↔ Dev.Keeps bs a d := by
  simp only [Dev.beatIsDue]; repeat' split
  all_goals simp [*]

/-! ### Source Arbiter -/

@[simp] theorem keeps_raiseFocus {x : FocusCause} {y : Option Src} (h0 : Part.notices ∈ bs) :
    Dev.Keeps bs a (d.raiseFocus x y) ↔ Dev.Keeps bs a d := by
  simp [Dev.raiseFocus, *]

@[simp] theorem keeps_takeFocus {x : Src} {p : Option (Time × BeatRef)} (h0 : Part.eng ∈ bs) (h1 : Part.arb ∈ bs)
    (h2 : Part.handovers ∈ bs) :
    Dev.Keeps bs a (d.takeFocus x p) ↔ Dev.Keeps bs a d := by
  simp [Dev.takeFocus, *]

@[simp] theorem keeps_dropFocus (h0 : Part.eng ∈ bs) (h1 : Part.arb ∈ bs) (h2 : Part.handovers ∈ bs) :
    Dev.Keeps bs a d.dropFocus ↔ Dev.Keeps bs a d := by
  simp [Dev.dropFocus, *]

@[simp] theorem keeps_heard {x : Src} {r : TapReport} (h0 : Part.arb ∈ bs) (h1 : Part.notices ∈ bs) :
    Dev.Keeps bs a (d.heard x r) ↔ Dev.Keeps bs a d := by
  simp only [Dev.heard]; repeat' split
  all_goals simp [*]

@[simp] theorem keeps_holderTap {x : Src} {t : Time} (h0 : Part.eng ∈ bs) (h1 : Part.arb ∈ bs)
    (h2 : Part.notices ∈ bs) (h3 : Part.handovers ∈ bs) :
    Dev.Keeps bs a (d.holderTap x t).1 ↔ Dev.Keeps bs a d := by
  simp [Dev.holderTap, *]

@[simp] theorem keeps_tapTakes {x : Src} {t : Time} {k : FocusCause} {p : Option (Time × BeatRef)}
    (h0 : Part.eng ∈ bs) (h1 : Part.arb ∈ bs) (h2 : Part.notices ∈ bs) (h3 : Part.handovers ∈ bs) :
    Dev.Keeps bs a (d.tapTakes x t k p).1 ↔ Dev.Keeps bs a d := by
  simp [Dev.tapTakes, *]

@[simp] theorem keeps_claimTap {x : Src} {t : Time} {f : Focus} {b : BeatRef} (h0 : Part.eng ∈ bs)
    (h1 : Part.arb ∈ bs) (h2 : Part.notices ∈ bs) (h3 : Part.handovers ∈ bs) :
    Dev.Keeps bs a (d.claimTap x t f b).1 ↔ Dev.Keeps bs a d := by
  simp only [Dev.claimTap]; repeat' split
  all_goals simp [*]

@[simp] theorem keeps_rivalTap {x : Src} {t : Time} {f : Focus} (h0 : Part.eng ∈ bs) (h1 : Part.arb ∈ bs)
    (h2 : Part.notices ∈ bs) (h3 : Part.handovers ∈ bs) :
    Dev.Keeps bs a (d.rivalTap x t f).1 ↔ Dev.Keeps bs a d := by
  simp only [Dev.rivalTap]; repeat' split
  all_goals simp [*]

@[simp] theorem keeps_raceTap {x : Src} {t : Time} (h0 : Part.eng ∈ bs) (h1 : Part.arb ∈ bs)
    (h2 : Part.notices ∈ bs) (h3 : Part.handovers ∈ bs) :
    Dev.Keeps bs a (d.raceTap x t).1 ↔ Dev.Keeps bs a d := by
  simp only [Dev.raceTap]; repeat' split
  all_goals simp [*]

@[simp] theorem keeps_routeTap {x : Src} {t : Time} (h0 : Part.eng ∈ bs) (h1 : Part.arb ∈ bs)
    (h2 : Part.notices ∈ bs) (h3 : Part.handovers ∈ bs) :
    Dev.Keeps bs a (d.routeTap x t) ↔ Dev.Keeps bs a d := by
  simp only [Dev.routeTap]; repeat' split
  all_goals simp [*]

@[simp] theorem keeps_frontEnd {x : Src} {t : Time} (h0 : Part.eng ∈ bs) (h1 : Part.arb ∈ bs)
    (h2 : Part.notices ∈ bs) (h3 : Part.handovers ∈ bs) :
    Dev.Keeps bs a (d.frontEnd x t) ↔ Dev.Keeps bs a d := by
  simp only [Dev.frontEnd]; repeat' split
  all_goals simp [*]

@[simp] theorem keeps_lineEdge {l : Fin 4} {e : EdgeDir} (h0 : Part.eng ∈ bs) (h1 : Part.arb ∈ bs)
    (h2 : Part.notices ∈ bs) (h3 : Part.handovers ∈ bs) :
    Dev.Keeps bs a (d.lineEdge l e) ↔ Dev.Keeps bs a d := by
  simp only [Dev.lineEdge]; repeat' split
  all_goals simp [*]

@[simp] theorem keeps_closeHolder {x : Close} (h0 : Part.arb ∈ bs) (h1 : Part.notices ∈ bs) :
    Dev.Keeps bs a (d.closeHolder x) ↔ Dev.Keeps bs a d := by
  simp only [Dev.closeHolder]; repeat' split
  all_goals simp [*]

@[simp] theorem keeps_closeClaims {x : Close} (h0 : Part.arb ∈ bs) :
    Dev.Keeps bs a (d.closeClaims x) ↔ Dev.Keeps bs a d := by
  simp [Dev.closeClaims, *]

@[simp] theorem keeps_takeClose (h0 : Part.eng ∈ bs) (h1 : Part.arb ∈ bs) (h2 : Part.notices ∈ bs) :
    Dev.Keeps bs a d.takeClose ↔ Dev.Keeps bs a d := by
  simp only [Dev.takeClose]; repeat' split
  all_goals simp [*]

@[simp] theorem keeps_pinFocus {x : Src} (h0 : Part.eng ∈ bs) (h1 : Part.arb ∈ bs) (h2 : Part.notices ∈ bs)
    (h3 : Part.handovers ∈ bs) :
    Dev.Keeps bs a (d.pinFocus x) ↔ Dev.Keeps bs a d := by
  simp only [Dev.pinFocus]; repeat' split
  all_goals simp [*]

@[simp] theorem keeps_freeFocus (h0 : Part.arb ∈ bs) (h1 : Part.notices ∈ bs) :
    Dev.Keeps bs a d.freeFocus ↔ Dev.Keeps bs a d := by
  simp only [Dev.freeFocus]; repeat' split
  all_goals simp [*]

@[simp] theorem keeps_clearFocus (h0 : Part.eng ∈ bs) (h1 : Part.arb ∈ bs) (h2 : Part.notices ∈ bs)
    (h3 : Part.handovers ∈ bs) :
    Dev.Keeps bs a d.clearFocus ↔ Dev.Keeps bs a d := by
  simp only [Dev.clearFocus]; repeat' split
  all_goals simp [*]

@[simp] theorem keeps_armFocus (h0 : Part.eng ∈ bs) (h1 : Part.arb ∈ bs) (h2 : Part.notices ∈ bs)
    (h3 : Part.handovers ∈ bs) :
    Dev.Keeps bs a d.armFocus ↔ Dev.Keeps bs a d := by
  simp only [Dev.armFocus]; repeat' split
  all_goals simp [*]

/-! ### Rooms and lanes -/

@[simp] theorem keeps_alignRoom {n : Nat} {r : Fin 4} (h0 : Part.rooms ∈ bs) (h1 : Part.notices ∈ bs) :
    Dev.Keeps bs a (Dev.alignRoom n d r) ↔ Dev.Keeps bs a d := by
  simp only [Dev.alignRoom]; repeat' split
  all_goals simp [*]

@[simp] theorem keeps_realign {r : Fin 4} (h0 : Part.rooms ∈ bs) (h1 : Part.notices ∈ bs) :
    Dev.Keeps bs a (d.realign r) ↔ Dev.Keeps bs a d := by
  simp [Dev.realign, *]

@[simp] theorem keeps_realignAll (h0 : Part.rooms ∈ bs) (h1 : Part.notices ∈ bs) :
    Dev.Keeps bs a d.realignAll ↔ Dev.Keeps bs a d := by
  rw [Dev.realignAll]; exact keeps_foldl _ _ fun d x => by simp [*]

@[simp] theorem keeps_alignAfresh (h0 : Part.rooms ∈ bs) (h1 : Part.notices ∈ bs) :
    Dev.Keeps bs a d.alignAfresh ↔ Dev.Keeps bs a d := by
  rw [Dev.alignAfresh]; exact keeps_foldl _ _ fun d x => by simp [*]

@[simp] theorem keeps_clickBeat {m : BeatMark} (h0 : Part.lanes ∈ bs) :
    Dev.Keeps bs a (d.clickBeat m) ↔ Dev.Keeps bs a d := by
  simp only [Dev.clickBeat]; repeat' split
  all_goals simp [*]

@[simp] theorem keeps_emptyLanes (h0 : Part.lanes ∈ bs) :
    Dev.Keeps bs a d.emptyLanes ↔ Dev.Keeps bs a d := by
  simp [Dev.emptyLanes, *]

@[simp] theorem keeps_resetLanes (h0 : Part.lanes ∈ bs) :
    Dev.Keeps bs a d.resetLanes ↔ Dev.Keeps bs a d := by
  simp [Dev.resetLanes, *]

@[simp] theorem keeps_chaseLanes {m : Pos} (h0 : Part.lanes ∈ bs) :
    Dev.Keeps bs a (d.chaseLanes m) ↔ Dev.Keeps bs a d := by
  simp [Dev.chaseLanes, *]

/-! ### Cue Scheduler -/

@[simp] theorem keeps_fireStage {y : FireHow} {x : Cue} {z : Stage} (h0 : Part.sched ∈ bs) (h1 : Part.notices ∈ bs)
    (h2 : Part.handovers ∈ bs) :
    Dev.Keeps bs a (d.fireStage y x z) ↔ Dev.Keeps bs a d := by
  simp only [Dev.fireStage]; repeat' split
  all_goals simp [*]

@[simp] theorem keeps_fireAll {y : FireHow} {l : List Due} (h0 : Part.sched ∈ bs) (h1 : Part.notices ∈ bs)
    (h2 : Part.handovers ∈ bs) :
    Dev.Keeps bs a (d.fireAll y l) ↔ Dev.Keeps bs a d := by
  rw [Dev.fireAll]; exact keeps_foldl _ _ fun d x => by simp [*]

@[simp] theorem keeps_setPending {m : BeatMark} (h0 : Part.sched ∈ bs) :
    Dev.Keeps bs a (d.setPending m) ↔ Dev.Keeps bs a d := by
  rw [Dev.setPending]; exact keeps_foldl _ _ fun d x => by simp [*]

@[simp] theorem keeps_fireTicks (h0 : Part.sched ∈ bs) (h1 : Part.notices ∈ bs) (h2 : Part.handovers ∈ bs) :
    Dev.Keeps bs a d.fireTicks ↔ Dev.Keeps bs a d := by
  simp [Dev.fireTicks, *]

@[simp] theorem keeps_cueBeat {m : BeatMark} (h0 : Part.sched ∈ bs) (h1 : Part.notices ∈ bs)
    (h2 : Part.handovers ∈ bs) :
    Dev.Keeps bs a (d.cueBeat m) ↔ Dev.Keeps bs a d := by
  simp only [Dev.cueBeat]; repeat' split
  all_goals simp [*]

@[simp] theorem keeps_markCues {m : Pos} (h0 : Part.sched ∈ bs) (h1 : Part.notices ∈ bs) :
    Dev.Keeps bs a (d.markCues m) ↔ Dev.Keeps bs a d := by
  simp [Dev.markCues, *]

@[simp] theorem keeps_putCue {c : Cue} (h0 : Part.data ∈ bs) (h1 : Part.sched ∈ bs) (h2 : Part.notices ∈ bs) :
    Dev.Keeps bs a (d.putCue c) ↔ Dev.Keeps bs a d := by
  simp [Dev.putCue, *]

@[simp] theorem keeps_deleteCue {c : Cue} (h0 : Part.data ∈ bs) (h1 : Part.sched ∈ bs) (h2 : Part.notices ∈ bs) :
    Dev.Keeps bs a (d.deleteCue c) ↔ Dev.Keeps bs a d := by
  simp [Dev.deleteCue, *]

/-! ### Slot Manager -/

@[simp] theorem keeps_enqueue {i : SlotId} {p : Nat} (h0 : Part.link ∈ bs) :
    Dev.Keeps bs a (d.enqueue i p) ↔ Dev.Keeps bs a d := by
  simp [Dev.enqueue, *]

@[simp] theorem keeps_unqueue {i : SlotId} (h0 : Part.link ∈ bs) :
    Dev.Keeps bs a (d.unqueue i) ↔ Dev.Keeps bs a d := by
  simp [Dev.unqueue, *]

@[simp] theorem keeps_requeue {i : SlotId} {p : Nat} (h0 : Part.link ∈ bs) :
    Dev.Keeps bs a (d.requeue i p) ↔ Dev.Keeps bs a d := by
  simp [Dev.requeue, *]

@[simp] theorem keeps_queueSlot {i : SlotId} {n : Nat} (h0 : Part.slots ∈ bs) (h1 : Part.link ∈ bs) :
    Dev.Keeps bs a (d.queueSlot i n) ↔ Dev.Keeps bs a d := by
  simp only [Dev.queueSlot]; repeat' split
  all_goals simp [*]

@[simp] theorem keeps_compare {i : SlotId} (h0 : Part.slots ∈ bs) (h1 : Part.link ∈ bs) :
    Dev.Keeps bs a (d.compare i) ↔ Dev.Keeps bs a d := by
  simp only [Dev.compare]; repeat' split
  all_goals simp [*]

@[simp] theorem keeps_idleCompare {i : SlotId} (h0 : Part.slots ∈ bs) (h1 : Part.link ∈ bs) :
    Dev.Keeps bs a (d.idleCompare i) ↔ Dev.Keeps bs a d := by
  simp [Dev.idleCompare, *]

@[simp] theorem keeps_newDesired {i : SlotId} {p : Option Nat} (h0 : Part.slots ∈ bs) (h1 : Part.link ∈ bs) :
    Dev.Keeps bs a (d.newDesired i p) ↔ Dev.Keeps bs a d := by
  simp only [Dev.newDesired]; repeat' split
  all_goals simp [*]

@[simp] theorem keeps_retrySlot {i : SlotId} {n : Nat} (h0 : Part.slots ∈ bs) (h1 : Part.link ∈ bs) :
    Dev.Keeps bs a (d.retrySlot i n) ↔ Dev.Keeps bs a d := by
  simp only [Dev.retrySlot]; repeat' split
  all_goals simp [*]

@[simp] theorem keeps_raisePatch {x : PatchCause} {i : SlotId} (h0 : Part.notices ∈ bs) :
    Dev.Keeps bs a (d.raisePatch x i) ↔ Dev.Keeps bs a d := by
  simp [Dev.raisePatch, *]

@[simp] theorem keeps_restSlots {n : Nat} (h0 : Part.slots ∈ bs) (h1 : Part.handovers ∈ bs) :
    Dev.Keeps bs a (d.restSlots n) ↔ Dev.Keeps bs a d := by
  simp only [Dev.restSlots]; repeat' split
  all_goals simp [*]

theorem keeps_slotEvent {f : Dev → Dev} (h0 : Part.slots ∈ bs) (h1 : Part.handovers ∈ bs) :
    Dev.Keeps bs a (d.slotEvent f) ↔ Dev.Keeps bs a (f d) := by
  simp [Dev.slotEvent, *]

@[simp] theorem keeps_clearChase (h0 : Part.slots ∈ bs) (h1 : Part.ctl ∈ bs) (h2 : Part.handovers ∈ bs) :
    Dev.Keeps bs a d.clearChase ↔ Dev.Keeps bs a d := by
  simp [Dev.clearChase, *]

@[simp] theorem keeps_chaseSlot {q : Pos} {i : SlotId} (h0 : Part.slots ∈ bs) (h1 : Part.link ∈ bs) :
    Dev.Keeps bs a (Dev.chaseSlot q d i) ↔ Dev.Keeps bs a d := by
  simp only [Dev.chaseSlot]; repeat' split
  all_goals simp [*]

@[simp] theorem keeps_chaseSlots {m : Pos} (h0 : Part.slots ∈ bs) (h1 : Part.link ∈ bs) (h2 : Part.ctl ∈ bs)
    (h3 : Part.handovers ∈ bs) :
    Dev.Keeps bs a (d.chaseSlots m) ↔ Dev.Keeps bs a d := by
  rw [Dev.chaseSlots, keeps_setCtl ‹_›]
  rw [keeps_foldl _ _ fun d x => by simp [*]]; simp [*]

@[simp] theorem keeps_recompute {i : SlotId} (h0 : Part.slots ∈ bs) (h1 : Part.link ∈ bs) :
    Dev.Keeps bs a (d.recompute i) ↔ Dev.Keeps bs a d := by
  simp only [Dev.recompute]; repeat' split
  all_goals simp [*]

@[simp] theorem keeps_offSlot {i : SlotId} (h0 : Part.slots ∈ bs) (h1 : Part.link ∈ bs) :
    Dev.Keeps bs a (d.offSlot i) ↔ Dev.Keeps bs a d := by
  simp only [Dev.offSlot]; repeat' split
  all_goals simp [*]

@[simp] theorem keeps_absentSlot {i : SlotId} (h0 : Part.slots ∈ bs) (h1 : Part.link ∈ bs) :
    Dev.Keeps bs a (d.absentSlot i) ↔ Dev.Keeps bs a d := by
  simp [Dev.absentSlot, *]

@[simp] theorem keeps_resyncSlot {i : SlotId} (h0 : Part.slots ∈ bs) (h1 : Part.link ∈ bs) :
    Dev.Keeps bs a (d.resyncSlot i) ↔ Dev.Keeps bs a d := by
  simp only [Dev.resyncSlot]; repeat' split
  all_goals simp [*]

@[simp] theorem keeps_resync {n : Fin 16} {k : Nat} (h0 : Part.slots ∈ bs) (h1 : Part.link ∈ bs) :
    Dev.Keeps bs a (d.resync n k) ↔ Dev.Keeps bs a d := by
  simp only [Dev.resync]
  rw [keeps_foldl _ _ fun d x => by simp [*], keeps_foldl _ _ fun d x => by simp [*],
    keeps_foldl _ _ fun d x => by simp [*]]

@[simp] theorem keeps_withholdSlot {i : SlotId} (h0 : Part.slots ∈ bs) (h1 : Part.link ∈ bs) :
    Dev.Keeps bs a (d.withholdSlot i) ↔ Dev.Keeps bs a d := by
  simp only [Dev.withholdSlot]; repeat' split
  all_goals simp [*]

/-! ### Link Controller -/

@[simp] theorem keeps_putFrame {k : FrameKind} {l : List Byte} (h0 : Part.link ∈ bs) :
    Dev.Keeps bs a (d.putFrame k l) ↔ Dev.Keeps bs a d := by
  simp [Dev.putFrame, *]

@[simp] theorem keeps_startStop {p : StopPending} (h0 : Part.link ∈ bs) :
    Dev.Keeps bs a (d.startStop p) ↔ Dev.Keeps bs a d := by
  simp [Dev.startStop, *]

@[simp] theorem keeps_startClear {n : Fin 16} (h0 : Part.link ∈ bs) :
    Dev.Keeps bs a (d.startClear n) ↔ Dev.Keeps bs a d := by
  simp [Dev.startClear, *]

@[simp] theorem keeps_startPoll (h0 : Part.link ∈ bs) :
    Dev.Keeps bs a d.startPoll ↔ Dev.Keeps bs a d := by
  simp [Dev.startPoll, *]

@[simp] theorem keeps_startPatch {e : QueueEntry} (h0 : Part.link ∈ bs) (h1 : Part.slots ∈ bs) :
    Dev.Keeps bs a (d.startPatch e) ↔ Dev.Keeps bs a d := by
  simp [Dev.startPatch, *]

@[simp] theorem keeps_startBeacon (h0 : Part.link ∈ bs) :
    Dev.Keeps bs a d.startBeacon ↔ Dev.Keeps bs a d := by
  simp [Dev.startBeacon, *]

@[simp] theorem keeps_startFrame (h0 : Part.link ∈ bs) (h1 : Part.slots ∈ bs) :
    Dev.Keeps bs a d.startFrame ↔ Dev.Keeps bs a d := by
  simp only [Dev.startFrame]; repeat' split
  all_goals simp [*]

@[simp] theorem keeps_raiseStation {x : StationCause} {n : Fin 16} {h : Health} (h0 : Part.notices ∈ bs) :
    Dev.Keeps bs a (d.raiseStation x n h) ↔ Dev.Keeps bs a d := by
  simp [Dev.raiseStation, *]

@[simp] theorem keeps_stationOff {n : Fin 16} {h : Health} (h0 : Part.link ∈ bs) (h1 : Part.notices ∈ bs)
    (h2 : Part.handovers ∈ bs) :
    Dev.Keeps bs a (d.stationOff n h) ↔ Dev.Keeps bs a d := by
  simp [Dev.stationOff, *]

@[simp] theorem keeps_followFaults {n : Fin 16} (h0 : Part.link ∈ bs) (h1 : Part.notices ∈ bs)
    (h2 : Part.handovers ∈ bs) :
    Dev.Keeps bs a (d.followFaults n) ↔ Dev.Keeps bs a d := by
  simp only [Dev.followFaults]; repeat' split
  all_goals simp [*]

@[simp] theorem keeps_fault {n : Fin 16} {e : LinkError} (h0 : Part.link ∈ bs) (h1 : Part.notices ∈ bs)
    (h2 : Part.handovers ∈ bs) :
    Dev.Keeps bs a (d.fault n e) ↔ Dev.Keeps bs a d := by
  simp only [Dev.fault]; repeat' split
  all_goals simp [*]

@[simp] theorem keeps_success {n : Fin 16} (h0 : Part.link ∈ bs) (h1 : Part.notices ∈ bs) (h2 : Part.handovers ∈ bs) :
    Dev.Keeps bs a (d.success n) ↔ Dev.Keeps bs a d := by
  simp only [Dev.success]; repeat' split
  all_goals simp [*]

@[simp] theorem keeps_countStatus {n : Fin 16} {s : FrameStatus} (h0 : Part.link ∈ bs) (h1 : Part.notices ∈ bs)
    (h2 : Part.handovers ∈ bs) :
    Dev.Keeps bs a (d.countStatus n s) ↔ Dev.Keeps bs a d := by
  simp only [Dev.countStatus]; repeat' split
  all_goals simp [*]

@[simp] theorem keeps_joinStation {n : Fin 16} {k : Nat} (h0 : Part.link ∈ bs) (h1 : Part.notices ∈ bs)
    (h2 : Part.handovers ∈ bs) :
    Dev.Keeps bs a (d.joinStation n k) ↔ Dev.Keeps bs a d := by
  simp [Dev.joinStation, *]

@[simp] theorem keeps_routeReport {n : Fin 16} {r : Report} (h0 : Part.link ∈ bs) (h1 : Part.notices ∈ bs)
    (h2 : Part.handovers ∈ bs) :
    Dev.Keeps bs a (d.routeReport n r) ↔ Dev.Keeps bs a d := by
  simp only [Dev.routeReport]; repeat' split
  all_goals simp [*]

@[simp] theorem keeps_rotate {n : Fin 16} (h0 : Part.link ∈ bs) :
    Dev.Keeps bs a (d.rotate n) ↔ Dev.Keeps bs a d := by
  simp [Dev.rotate, *]

@[simp] theorem keeps_takeBlock {l : List Byte} (h0 : Part.link ∈ bs) (h1 : Part.notices ∈ bs)
    (h2 : Part.handovers ∈ bs) :
    Dev.Keeps bs a (d.takeBlock l) ↔ Dev.Keeps bs a d := by
  simp only [Dev.takeBlock]; repeat' split
  all_goals simp [*]

@[simp] theorem keeps_wakeClears (h0 : Part.link ∈ bs) :
    Dev.Keeps bs a d.wakeClears ↔ Dev.Keeps bs a d := by
  simp [Dev.wakeClears, *]

@[simp] theorem keeps_takeClear {n : Fin 16} (h0 : Part.link ∈ bs) :
    Dev.Keeps bs a (d.takeClear n) ↔ Dev.Keeps bs a d := by
  simp only [Dev.takeClear]; repeat' split
  all_goals simp [*]

@[simp] theorem keeps_freeLine (h0 : Part.link ∈ bs) :
    Dev.Keeps bs a d.freeLine ↔ Dev.Keeps bs a d := by
  simp [Dev.freeLine, *]

/-! ### Video Unit -/

@[simp] theorem keeps_raiseCapture {c : Cam} {f : Option Nat} {t : Time} (h0 : Part.notices ∈ bs) :
    Dev.Keeps bs a (d.raiseCapture c f t) ↔ Dev.Keeps bs a d := by
  simp [Dev.raiseCapture, *]

@[simp] theorem keeps_capture {f g : Option Nat} (h0 : Part.video ∈ bs) (h1 : Part.notices ∈ bs) :
    Dev.Keeps bs a (d.capture f g) ↔ Dev.Keeps bs a d := by
  simp [Dev.capture, *]

@[simp] theorem keeps_tagBeat {m : BeatMark} (h0 : Part.video ∈ bs) :
    Dev.Keeps bs a (d.tagBeat m) ↔ Dev.Keeps bs a d := by
  simp [Dev.tagBeat, *]

@[simp] theorem keeps_stepBlink (h0 : Part.video ∈ bs) :
    Dev.Keeps bs a d.stepBlink ↔ Dev.Keeps bs a d := by
  simp [Dev.stepBlink, *]

@[simp] theorem keeps_takeCams (h0 : Part.video ∈ bs) :
    Dev.Keeps bs a d.takeCams ↔ Dev.Keeps bs a d := by
  simp [Dev.takeCams, *]

@[simp] theorem keeps_startReference {f g : Option Nat} (h0 : Part.video ∈ bs) (h1 : Part.notices ∈ bs) :
    Dev.Keeps bs a (d.startReference f g) ↔ Dev.Keeps bs a d := by
  simp [Dev.startReference, *]

@[simp] theorem keeps_handCams {h : Option FocusHand} (h0 : Part.video ∈ bs) :
    Dev.Keeps bs a (d.handCams h) ↔ Dev.Keeps bs a d := by
  simp [Dev.handCams, *]

@[simp] theorem keeps_stopPages (h0 : Part.video ∈ bs) :
    Dev.Keeps bs a d.stopPages ↔ Dev.Keeps bs a d := by
  simp [Dev.stopPages, *]

@[simp] theorem keeps_resourceOuts {o : ShowData} (h0 : Part.video ∈ bs) :
    Dev.Keeps bs a (d.resourceOuts o) ↔ Dev.Keeps bs a d := by
  simp [Dev.resourceOuts, *]

/-! ### Show Controller and the end of a command -/

@[simp] theorem keeps_raiseShow {x : ShowCause} {y : Option ShowState} (h0 : Part.notices ∈ bs) :
    Dev.Keeps bs a (d.raiseShow x y) ↔ Dev.Keeps bs a d := by
  simp [Dev.raiseShow, *]

@[simp] theorem keeps_setShowState {x : ShowState} {y : ShowCause} (h0 : Part.ctl ∈ bs) (h1 : Part.notices ∈ bs)
    (h2 : Part.handovers ∈ bs) :
    Dev.Keeps bs a (d.setShowState x y) ↔ Dev.Keeps bs a d := by
  simp only [Dev.setShowState]; repeat' split
  all_goals simp [*]

@[simp] theorem keeps_clearArmed (h0 : Part.ctl ∈ bs) (h1 : Part.eng ∈ bs) (h2 : Part.slots ∈ bs)
    (h3 : Part.handovers ∈ bs) :
    Dev.Keeps bs a d.clearArmed ↔ Dev.Keeps bs a d := by
  simp [Dev.clearArmed, *]

@[simp] theorem keeps_clearRun (h0 : Part.sched ∈ bs) :
    Dev.Keeps bs a d.clearRun ↔ Dev.Keeps bs a d := by
  simp [Dev.clearRun, *]

@[simp] theorem keeps_beginStop {h : Holder} {n : Nat} (h0 : Part.ctl ∈ bs) (h1 : Part.eng ∈ bs)
    (h2 : Part.slots ∈ bs) (h3 : Part.link ∈ bs) (h4 : Part.handovers ∈ bs) :
    Dev.Keeps bs a (d.beginStop h n) ↔ Dev.Keeps bs a d := by
  simp [Dev.beginStop, *]

@[simp] theorem keeps_enterStopped {h : Holder} {n : Nat} (h0 : Part.ctl ∈ bs) (h1 : Part.eng ∈ bs)
    (h2 : Part.slots ∈ bs) (h3 : Part.link ∈ bs) (h4 : Part.handovers ∈ bs) (h5 : Part.notices ∈ bs) :
    Dev.Keeps bs a (d.enterStopped h n) ↔ Dev.Keeps bs a d := by
  simp [Dev.enterStopped, *]

@[simp] theorem keeps_addHolder {h : Holder} {n : Nat} (h0 : Part.ctl ∈ bs) (h1 : Part.eng ∈ bs)
    (h2 : Part.slots ∈ bs) (h3 : Part.link ∈ bs) (h4 : Part.handovers ∈ bs) (h5 : Part.notices ∈ bs) :
    Dev.Keeps bs a (d.addHolder h n) ↔ Dev.Keeps bs a d := by
  simp only [Dev.addHolder]; repeat' split
  all_goals simp [*]

@[simp] theorem keeps_removeHolder {h : Holder} (h0 : Part.ctl ∈ bs) (h1 : Part.handovers ∈ bs)
    (h2 : Part.notices ∈ bs) :
    Dev.Keeps bs a (d.removeHolder h) ↔ Dev.Keeps bs a d := by
  simp only [Dev.removeHolder]; repeat' split
  all_goals simp [*]

@[simp] theorem keeps_cueStopped (h0 : Part.sched ∈ bs) :
    Dev.Keeps bs a d.cueStopped ↔ Dev.Keeps bs a d := by
  simp [Dev.cueStopped, *]

@[simp] theorem keeps_lanesChanged {x : ShowState} (h0 : Part.lanes ∈ bs) :
    Dev.Keeps bs a (d.lanesChanged x) ↔ Dev.Keeps bs a d := by
  simp only [Dev.lanesChanged]; repeat' split
  all_goals simp [*]

@[simp] theorem keeps_slotStopped (h0 : Part.slots ∈ bs) (h1 : Part.link ∈ bs) (h2 : Part.handovers ∈ bs) :
    Dev.Keeps bs a d.slotStopped ↔ Dev.Keeps bs a d := by
  rw [Dev.slotStopped, keeps_slotEvent ‹_› ‹_›]
  exact keeps_foldl _ _ fun d x => by simp [*]

@[simp] theorem keeps_takeShowChange {c : Instr} (h0 : Part.sched ∈ bs) (h1 : Part.slots ∈ bs)
    (h2 : Part.link ∈ bs) (h3 : Part.handovers ∈ bs) (h4 : Part.lanes ∈ bs) (h5 : Part.video ∈ bs) :
    Dev.Keeps bs a (d.takeShowChange c) ↔ Dev.Keeps bs a d := by
  simp only [Dev.takeShowChange]; repeat' split
  all_goals simp [*]

@[simp] theorem keeps_takeShowChanges (h0 : Part.sched ∈ bs) (h1 : Part.slots ∈ bs) (h2 : Part.link ∈ bs)
    (h3 : Part.handovers ∈ bs) (h4 : Part.lanes ∈ bs) (h5 : Part.video ∈ bs) :
    Dev.Keeps bs a d.takeShowChanges ↔ Dev.Keeps bs a d := by
  rw [Dev.takeShowChanges]; exact keeps_foldl _ _ fun d x => by simp [*]

@[simp] theorem keeps_settle (h0 : Part.port ∈ bs) (h1 : Part.notices ∈ bs) (h2 : Part.slots ∈ bs)
    (h3 : Part.link ∈ bs) :
    Dev.Keeps bs a d.settle ↔ Dev.Keeps bs a d := by
  simp [Dev.settle, *]

end Sys2Proof.Machine
end

