-- ==== Sys2Proof/Laws/Ops.lean ====
section
/-! SUPPORT. What the operations every command shares answer: a request and its owner, raising and handing over, and
the end of a command. -/

namespace Sys2Proof.Machine

/-! ### Running a command -/

theorem run_eq (s : State) (f : Dev → Dev) : s.run f = .next (s.ended (f s.dev)) := rfl

/-- A request in range is its owner's answer. -/
theorem request_eq (s : State) {c : Instr} (tag : Nat) (owner : Dev → Dev × Answer) (h : c.rangeOk = true) :
    s.request c tag owner =
      .next (s.replied tag (owner (s.dev.takeRequest c)).2 (owner (s.dev.takeRequest c)).1) := by
  simp [State.request, State.run, Dev.request, h, State.replied, State.ended, State.after]

/-- A request with a field out of its range is refused RANGE. -/
theorem request_range (s : State) {c : Instr} (tag : Nat) (owner : Dev → Dev × Answer) (h : c.rangeOk = false) :
    s.request c tag owner = .next (s.replied tag (.no .range) (s.dev.takeRequest c)) := by
  simp [State.request, State.run, Dev.request, h, State.replied, State.ended, State.after]

@[simp] theorem ended_dev (s : State) (d : Dev) : (s.ended d).dev = d.settle := rfl
@[simp] theorem ended_pending (s : State) (d : Dev) : (s.ended d).pending = s.pending := rfl
@[simp] theorem replied_dev (s : State) (t : Nat) (a : Answer) (d : Dev) :
    (s.replied t a d).dev = (d.answer t a).settle := rfl

/-! ### A frame read at one block -/

section
variable {bs : List Part} {a b : Dev} (h : Dev.Keeps bs a b)
include h
theorem Dev.Keeps.clock (k : Part.clock ∉ bs := by decide) : b.clock = a.clock := h .clock k
theorem Dev.Keeps.fresh (k : Part.fresh ∉ bs := by decide) : b.fresh = a.fresh := h .fresh k
theorem Dev.Keeps.data (k : Part.data ∉ bs := by decide) : b.data = a.data := h .data k
theorem Dev.Keeps.eng (k : Part.eng ∉ bs := by decide) : b.eng = a.eng := h .eng k
theorem Dev.Keeps.arb (k : Part.arb ∉ bs := by decide) : b.arb = a.arb := h .arb k
theorem Dev.Keeps.rooms (k : Part.rooms ∉ bs := by decide) : b.rooms = a.rooms := h .rooms k
theorem Dev.Keeps.lanes (k : Part.lanes ∉ bs := by decide) : b.lanes = a.lanes := h .lanes k
theorem Dev.Keeps.sched (k : Part.sched ∉ bs := by decide) : b.sched = a.sched := h .sched k
theorem Dev.Keeps.slots (k : Part.slots ∉ bs := by decide) : b.slots = a.slots := h .slots k
theorem Dev.Keeps.link (k : Part.link ∉ bs := by decide) : b.link = a.link := h .link k
theorem Dev.Keeps.video (k : Part.video ∉ bs := by decide) : b.video = a.video := h .video k
theorem Dev.Keeps.ctl (k : Part.ctl ∉ bs := by decide) : b.ctl = a.ctl := h .ctl k
theorem Dev.Keeps.store (k : Part.store ∉ bs := by decide) : b.store = a.store := h .store k
theorem Dev.Keeps.handovers (k : Part.handovers ∉ bs := by decide) : b.handovers = a.handovers := h .handovers k
theorem Dev.Keeps.inHand (k : Part.hand ∉ bs := by decide) : b.port.inHand = a.port.inHand := h .hand k
theorem Dev.Keeps.high (k : Part.notices ∉ bs := by decide) : b.port.high = a.port.high := (h .notices k).1
theorem Dev.Keeps.low (k : Part.notices ∉ bs := by decide) : b.port.low = a.port.low := (h .notices k).2.1
theorem Dev.Keeps.missed (k : Part.notices ∉ bs := by decide) : b.port.missed = a.port.missed := (h .notices k).2.2
theorem Dev.Keeps.rest (k : Part.port ∉ bs := by decide) : b.port.rest = a.port.rest := h .port k

/-- A frame that leaves out no part of the port keeps the port. -/
theorem Dev.Keeps.port (k1 : Part.hand ∉ bs := by decide) (k2 : Part.notices ∉ bs := by decide)
    (k3 : Part.port ∉ bs := by decide) : b.port = a.port := by
  have e1 := h .hand k1; have e2 := h .notices k2; have e3 := h .port k3
  revert e1 e2 e3
  simp only [Dev.same, Port.rest]
  cases a.port; cases b.port
  simp_all
end

/-- A frame with every block left out is an equality. -/
theorem keeps_nil_iff {a b : Dev} : Dev.Keeps [] a b ↔ b = a := by
  constructor
  · intro h
    have h1 := h.clock; have h2 := h.fresh; have h3 := h.data; have h4 := h.eng; have h5 := h.arb
    have h6 := h.rooms; have h7 := h.lanes; have h8 := h.sched; have h9 := h.slots; have h10 := h.link
    have h11 := h.video; have h12 := h.ctl; have h13 := h.store; have h14 := h.handovers; have h15 := h.port
    clear h
    cases a; cases b
    simp_all
  · rintro rfl; exact keeps_refl

/-! ### Raising a notice -/

@[simp] theorem raise_clock (d : Dev) (n : Notice) : (d.raise n).clock = d.clock := rfl
@[simp] theorem raise_fresh (d : Dev) (n : Notice) : (d.raise n).fresh = d.fresh := rfl
@[simp] theorem raise_data (d : Dev) (n : Notice) : (d.raise n).data = d.data := rfl
@[simp] theorem raise_eng (d : Dev) (n : Notice) : (d.raise n).eng = d.eng := rfl
@[simp] theorem raise_arb (d : Dev) (n : Notice) : (d.raise n).arb = d.arb := rfl
@[simp] theorem raise_rooms (d : Dev) (n : Notice) : (d.raise n).rooms = d.rooms := rfl
@[simp] theorem raise_lanes (d : Dev) (n : Notice) : (d.raise n).lanes = d.lanes := rfl
@[simp] theorem raise_sched (d : Dev) (n : Notice) : (d.raise n).sched = d.sched := rfl
@[simp] theorem raise_slots (d : Dev) (n : Notice) : (d.raise n).slots = d.slots := rfl
@[simp] theorem raise_link (d : Dev) (n : Notice) : (d.raise n).link = d.link := rfl
@[simp] theorem raise_video (d : Dev) (n : Notice) : (d.raise n).video = d.video := rfl
@[simp] theorem raise_ctl (d : Dev) (n : Notice) : (d.raise n).ctl = d.ctl := rfl
@[simp] theorem raise_store (d : Dev) (n : Notice) : (d.raise n).store = d.store := rfl
@[simp] theorem raise_handovers (d : Dev) (n : Notice) : (d.raise n).handovers = d.handovers := rfl

theorem raise_rest (d : Dev) (n : Notice) : (d.raise n).port.rest = d.port.rest :=
  ((keeps_raise (by decide)).2 keeps_refl : Dev.Keeps [.notices] d (d.raise n)).rest

@[simp] theorem raise_inHand (d : Dev) (n : Notice) : (d.raise n).port.inHand = d.port.inHand :=
  ((keeps_raise (by decide)).2 keeps_refl : Dev.Keeps [.notices] d (d.raise n)).inHand

@[simp] theorem raiseAll_nil (d : Dev) : d.raiseAll [] = d := rfl
@[simp] theorem raiseAll_cons (d : Dev) (n : Notice) (ns : List Notice) :
    d.raiseAll (n :: ns) = (d.raise n).raiseAll ns := rfl
theorem raiseAll_append (d : Dev) (ms ns : List Notice) : d.raiseAll (ms ++ ns) = (d.raiseAll ms).raiseAll ns :=
  List.foldl_append ..

/-- Raising sees only the port. -/
theorem raise_port (d : Dev) (n : Notice) : (d.raise n).port = d.port.raise n := rfl

theorem raiseAll_port (d : Dev) (ns : List Notice) : (d.raiseAll ns).port = ns.foldl Port.raise d.port := by
  induction ns generalizing d with
  | nil => rfl
  | cons n ns ih => exact ih (d.raise n)

/-- Raising the same notices over equal ports gives equal queues and flags. -/
theorem raised_of_port {a b c : Dev} {ns : List Notice} (h : b.port = a.port) (h' : c = b.raiseAll ns) :
    Dev.Raised ns a c := by
  subst h'
  simp [Dev.Raised, Dev.same, raiseAll_port, h]

/-! ### Handing over and taking -/

@[simp] theorem hand_clock (d : Dev) (cs : List Instr) : (d.hand cs).clock = d.clock := rfl
@[simp] theorem hand_fresh (d : Dev) (cs : List Instr) : (d.hand cs).fresh = d.fresh := rfl
@[simp] theorem hand_data (d : Dev) (cs : List Instr) : (d.hand cs).data = d.data := rfl
@[simp] theorem hand_eng (d : Dev) (cs : List Instr) : (d.hand cs).eng = d.eng := rfl
@[simp] theorem hand_arb (d : Dev) (cs : List Instr) : (d.hand cs).arb = d.arb := rfl
@[simp] theorem hand_rooms (d : Dev) (cs : List Instr) : (d.hand cs).rooms = d.rooms := rfl
@[simp] theorem hand_lanes (d : Dev) (cs : List Instr) : (d.hand cs).lanes = d.lanes := rfl
@[simp] theorem hand_sched (d : Dev) (cs : List Instr) : (d.hand cs).sched = d.sched := rfl
@[simp] theorem hand_slots (d : Dev) (cs : List Instr) : (d.hand cs).slots = d.slots := rfl
@[simp] theorem hand_link (d : Dev) (cs : List Instr) : (d.hand cs).link = d.link := rfl
@[simp] theorem hand_video (d : Dev) (cs : List Instr) : (d.hand cs).video = d.video := rfl
@[simp] theorem hand_ctl (d : Dev) (cs : List Instr) : (d.hand cs).ctl = d.ctl := rfl
@[simp] theorem hand_store (d : Dev) (cs : List Instr) : (d.hand cs).store = d.store := rfl

@[simp] theorem hand_port (d : Dev) (cs : List Instr) : (d.hand cs).port = d.port := rfl
@[simp] theorem hand_handovers (d : Dev) (cs : List Instr) : (d.hand cs).handovers = d.handovers ++ cs := rfl

/-! ### Taking a hand-over -/

@[simp] theorem take_clock (d : Dev) (c : Instr) : (d.take c).clock = d.clock := rfl
@[simp] theorem take_fresh (d : Dev) (c : Instr) : (d.take c).fresh = d.fresh := rfl
@[simp] theorem take_data (d : Dev) (c : Instr) : (d.take c).data = d.data := rfl
@[simp] theorem take_eng (d : Dev) (c : Instr) : (d.take c).eng = d.eng := rfl
@[simp] theorem take_arb (d : Dev) (c : Instr) : (d.take c).arb = d.arb := rfl
@[simp] theorem take_rooms (d : Dev) (c : Instr) : (d.take c).rooms = d.rooms := rfl
@[simp] theorem take_lanes (d : Dev) (c : Instr) : (d.take c).lanes = d.lanes := rfl
@[simp] theorem take_sched (d : Dev) (c : Instr) : (d.take c).sched = d.sched := rfl
@[simp] theorem take_slots (d : Dev) (c : Instr) : (d.take c).slots = d.slots := rfl
@[simp] theorem take_link (d : Dev) (c : Instr) : (d.take c).link = d.link := rfl
@[simp] theorem take_video (d : Dev) (c : Instr) : (d.take c).video = d.video := rfl
@[simp] theorem take_ctl (d : Dev) (c : Instr) : (d.take c).ctl = d.ctl := rfl
@[simp] theorem take_store (d : Dev) (c : Instr) : (d.take c).store = d.store := rfl

@[simp] theorem take_port (d : Dev) (c : Instr) : (d.take c).port = d.port := rfl
@[simp] theorem take_handovers (d : Dev) (c : Instr) : (d.take c).handovers = d.handovers.erase c := rfl

/-! ### Answering -/

@[simp] theorem answer_clock (d : Dev) (t : Nat) (a : Answer) : (d.answer t a).clock = d.clock := rfl
@[simp] theorem answer_fresh (d : Dev) (t : Nat) (a : Answer) : (d.answer t a).fresh = d.fresh := rfl
@[simp] theorem answer_data (d : Dev) (t : Nat) (a : Answer) : (d.answer t a).data = d.data := rfl
@[simp] theorem answer_eng (d : Dev) (t : Nat) (a : Answer) : (d.answer t a).eng = d.eng := rfl
@[simp] theorem answer_arb (d : Dev) (t : Nat) (a : Answer) : (d.answer t a).arb = d.arb := rfl
@[simp] theorem answer_rooms (d : Dev) (t : Nat) (a : Answer) : (d.answer t a).rooms = d.rooms := rfl
@[simp] theorem answer_lanes (d : Dev) (t : Nat) (a : Answer) : (d.answer t a).lanes = d.lanes := rfl
@[simp] theorem answer_sched (d : Dev) (t : Nat) (a : Answer) : (d.answer t a).sched = d.sched := rfl
@[simp] theorem answer_slots (d : Dev) (t : Nat) (a : Answer) : (d.answer t a).slots = d.slots := rfl
@[simp] theorem answer_link (d : Dev) (t : Nat) (a : Answer) : (d.answer t a).link = d.link := rfl
@[simp] theorem answer_video (d : Dev) (t : Nat) (a : Answer) : (d.answer t a).video = d.video := rfl
@[simp] theorem answer_ctl (d : Dev) (t : Nat) (a : Answer) : (d.answer t a).ctl = d.ctl := rfl
@[simp] theorem answer_store (d : Dev) (t : Nat) (a : Answer) : (d.answer t a).store = d.store := rfl
@[simp] theorem answer_handovers (d : Dev) (t : Nat) (a : Answer) : (d.answer t a).handovers = d.handovers := rfl

@[simp] theorem answer_port (d : Dev) (t : Nat) (a : Answer) :
    (d.answer t a).port = { d.port with reply := some ⟨t, a⟩ } := rfl

/-! ### Taking a request -/

@[simp] theorem takeRequest_clock (d : Dev) (c : Instr) : (d.takeRequest c).clock = d.clock := by
  unfold Dev.takeRequest; split <;> rfl
@[simp] theorem takeRequest_fresh (d : Dev) (c : Instr) : (d.takeRequest c).fresh = d.fresh := by
  unfold Dev.takeRequest; split <;> rfl
@[simp] theorem takeRequest_data (d : Dev) (c : Instr) : (d.takeRequest c).data = d.data := by
  unfold Dev.takeRequest; split <;> rfl
@[simp] theorem takeRequest_eng (d : Dev) (c : Instr) : (d.takeRequest c).eng = d.eng := by
  unfold Dev.takeRequest; split <;> rfl
@[simp] theorem takeRequest_arb (d : Dev) (c : Instr) : (d.takeRequest c).arb = d.arb := by
  unfold Dev.takeRequest; split <;> rfl
@[simp] theorem takeRequest_rooms (d : Dev) (c : Instr) : (d.takeRequest c).rooms = d.rooms := by
  unfold Dev.takeRequest; split <;> rfl
@[simp] theorem takeRequest_lanes (d : Dev) (c : Instr) : (d.takeRequest c).lanes = d.lanes := by
  unfold Dev.takeRequest; split <;> rfl
@[simp] theorem takeRequest_sched (d : Dev) (c : Instr) : (d.takeRequest c).sched = d.sched := by
  unfold Dev.takeRequest; split <;> rfl
@[simp] theorem takeRequest_slots (d : Dev) (c : Instr) : (d.takeRequest c).slots = d.slots := by
  unfold Dev.takeRequest; split <;> rfl
@[simp] theorem takeRequest_link (d : Dev) (c : Instr) : (d.takeRequest c).link = d.link := by
  unfold Dev.takeRequest; split <;> rfl
@[simp] theorem takeRequest_video (d : Dev) (c : Instr) : (d.takeRequest c).video = d.video := by
  unfold Dev.takeRequest; split <;> rfl
@[simp] theorem takeRequest_ctl (d : Dev) (c : Instr) : (d.takeRequest c).ctl = d.ctl := by
  unfold Dev.takeRequest; split <;> rfl
@[simp] theorem takeRequest_store (d : Dev) (c : Instr) : (d.takeRequest c).store = d.store := by
  unfold Dev.takeRequest; split <;> rfl
@[simp] theorem takeRequest_handovers (d : Dev) (c : Instr) : (d.takeRequest c).handovers = d.handovers := by
  unfold Dev.takeRequest; split <;> rfl

theorem takeRequest_inHand (d : Dev) (c : Instr) :
    (d.takeRequest c).port.inHand = if d.port.inHand = some c then none else d.port.inHand := by
  unfold Dev.takeRequest; split <;> rfl

/-- Taking a request changes nothing of the port but the hand. -/
theorem takeRequest_port (d : Dev) (c : Instr) :
    (d.takeRequest c).port =
      { d.port with inHand := if d.port.inHand = some c then none else d.port.inHand } := by
  unfold Dev.takeRequest; split <;> rfl

/-! ### The end of a command -/

/-- The line is free exactly when it is IDLE and no PATCH outcome waits for the Slot Manager. -/
theorem lineFree_iff (d : Dev) :
    d.lineFree = true ↔ d.link.line = none ∧ ∀ i p x, Instr.patchOutcome i p x ∉ d.handovers := by
  simp only [Dev.lineFree, Bool.and_eq_true, Option.isNone_iff_eq_none, Bool.not_eq_true', List.any_eq_false]
  refine and_congr_right fun _ => ⟨fun h i p x hm => h _ hm rfl, fun h c hm hc => ?_⟩
  unfold isOutcome at hc
  split at hc
  · exact h _ _ _ hm
  · exact absurd hc (by decide)

/-- No frame starts on a line that is not free. -/
theorem startFrame_of_not_free (d : Dev) (h : d.lineFree = false) : d.startFrame = d := by
  simp [Dev.startFrame, h]

theorem startFrame_port (d : Dev) : d.startFrame.port = d.port :=
  ((keeps_startFrame (by decide) (by decide)).2 keeps_refl : Dev.Keeps [.link, .slots] d d.startFrame).port

theorem settle_port (d : Dev) : d.settle.port = d.syncRecord.port.sendNext := by
  simp [Dev.settle, Dev.sendNext, startFrame_port]

theorem settle_keeps (d : Dev) : Dev.Keeps [.port, .notices, .slots, .link] d d.settle := by simp

@[simp] theorem settle_clock (d : Dev) : d.settle.clock = d.clock := (settle_keeps d).clock
@[simp] theorem settle_fresh (d : Dev) : d.settle.fresh = d.fresh := (settle_keeps d).fresh
@[simp] theorem settle_data (d : Dev) : d.settle.data = d.data := (settle_keeps d).data
@[simp] theorem settle_eng (d : Dev) : d.settle.eng = d.eng := (settle_keeps d).eng
@[simp] theorem settle_arb (d : Dev) : d.settle.arb = d.arb := (settle_keeps d).arb
@[simp] theorem settle_rooms (d : Dev) : d.settle.rooms = d.rooms := (settle_keeps d).rooms
@[simp] theorem settle_lanes (d : Dev) : d.settle.lanes = d.lanes := (settle_keeps d).lanes
@[simp] theorem settle_sched (d : Dev) : d.settle.sched = d.sched := (settle_keeps d).sched
@[simp] theorem settle_video (d : Dev) : d.settle.video = d.video := (settle_keeps d).video
@[simp] theorem settle_ctl (d : Dev) : d.settle.ctl = d.ctl := (settle_keeps d).ctl
@[simp] theorem settle_store (d : Dev) : d.settle.store = d.store := (settle_keeps d).store
@[simp] theorem settle_handovers (d : Dev) : d.settle.handovers = d.handovers := (settle_keeps d).handovers
@[simp] theorem settle_inHand (d : Dev) : d.settle.port.inHand = d.port.inHand := (settle_keeps d).inHand

theorem syncRecord_eq (d : Dev) :
    d.syncRecord = { d with port :=
      if d.ctl.record = d.port.record then d.port else { d.port with record := d.ctl.record, recordChanged := true } } := by
  unfold Dev.syncRecord; split <;> rfl

/-- The output arbiter leaves the reply slot as it is (R171). -/
theorem sendNext_reply (p : Port) : p.sendNext.reply = p.reply := by
  unfold Port.sendNext; repeat' split
  all_goals simp_all

@[simp] theorem settle_reply (d : Dev) : d.settle.port.reply = d.port.reply := by
  rw [settle_port, sendNext_reply, syncRecord_eq]; split <;> rfl

end Sys2Proof.Machine
end

