-- ==== Sys2Proof/Laws/Commands.lean ====
section
/-! SUPPORT. What each command may change: one frame per owner's effect and per event. -/

namespace Sys2Proof.Machine

variable {bs : List Part} {a d : Dev}

/-! ### Shared pieces -/

@[simp] theorem keeps_editTaken (h0 : Part.ctl ∈ bs) (h1 : Part.eng ∈ bs) (h2 : Part.slots ∈ bs)
    (h3 : Part.handovers ∈ bs) (h4 : Part.sched ∈ bs) : Dev.Keeps bs a d.editTaken ↔ Dev.Keeps bs a d := by
  simp only [Dev.editTaken]; split <;> simp [*]

@[simp] theorem keeps_writeSlot {i : SlotId} {x : SlotSet} (h0 : Part.data ∈ bs) (h1 : Part.slots ∈ bs)
    (h2 : Part.link ∈ bs) (h3 : Part.handovers ∈ bs) : Dev.Keeps bs a (d.writeSlot i x) ↔ Dev.Keeps bs a d := by
  simp only [Dev.writeSlot]
  split
  · exact Iff.rfl
  · rw [keeps_slotEvent h1 h3]; simp [*]

@[simp] theorem keeps_retryOne {i : SlotId} (h0 : Part.slots ∈ bs) (h1 : Part.link ∈ bs) :
    Dev.Keeps bs a (d.retryOne i) ↔ Dev.Keeps bs a d := by simp [Dev.retryOne, *]

@[simp] theorem keeps_retryIf {i : SlotId} (h0 : Part.slots ∈ bs) (h1 : Part.link ∈ bs) :
    Dev.Keeps bs a (d.retryIf i) ↔ Dev.Keeps bs a d := by simp only [Dev.retryIf]; split <;> simp [*]

@[simp] theorem keeps_offerPatch {x : PatchAction} {i : SlotId} (h0 : Part.slots ∈ bs) (h1 : Part.link ∈ bs) :
    Dev.Keeps bs a (Dev.offerPatch x d i) ↔ Dev.Keeps bs a d := by simp only [Dev.offerPatch]; split <;> simp [*]

@[simp] theorem keeps_lateSlot {n : Nat} {l : List PatchAction} {i : SlotId} (h : Part.notices ∈ bs) :
    Dev.Keeps bs a (Dev.lateSlot n l d i) ↔ Dev.Keeps bs a d := by
  simp only [Dev.lateSlot]; repeat' split
  all_goals simp [*]

@[simp] theorem keeps_writeRoom {r : Fin 4} {x : RoomSet} (h0 : Part.data ∈ bs) (h1 : Part.rooms ∈ bs)
    (h2 : Part.notices ∈ bs) : Dev.Keeps bs a (d.writeRoom r x) ↔ Dev.Keeps bs a d := by
  simp only [Dev.writeRoom]; split <;> simp [*]

@[simp] theorem keeps_changeStandard {x : Standard} (h0 : Part.data ∈ bs) (h1 : Part.rooms ∈ bs)
    (h2 : Part.notices ∈ bs) (h3 : Part.video ∈ bs) :
    Dev.Keeps bs a (d.changeStandard x) ↔ Dev.Keeps bs a d := by simp [Dev.changeStandard, *]

@[simp] theorem keeps_writeOut {r : Fin 6} {x : OutFields} (h0 : Part.data ∈ bs) (h1 : Part.video ∈ bs) :
    Dev.Keeps bs a (d.writeOut r x) ↔ Dev.Keeps bs a d := by simp [Dev.writeOut, *]

@[simp] theorem keeps_raiseStore {x : StoreCause} (h : Part.notices ∈ bs) :
    Dev.Keeps bs a (d.raiseStore x) ↔ Dev.Keeps bs a d := by simp [Dev.raiseStore, *]

@[simp] theorem keeps_armBlocks {x : Armed} (h0 : Part.ctl ∈ bs) (h1 : Part.eng ∈ bs) (h2 : Part.arb ∈ bs)
    (h3 : Part.sched ∈ bs) (h4 : Part.slots ∈ bs) (h5 : Part.link ∈ bs) (h6 : Part.lanes ∈ bs) (h7 : Part.video ∈ bs)
    (h8 : Part.notices ∈ bs) (h9 : Part.handovers ∈ bs) :
    Dev.Keeps bs a (d.armBlocks x) ↔ Dev.Keeps bs a d := by simp [Dev.armBlocks, *]

/-! ### Requests -/

theorem formPut_keeps (d : Dev) (f : FormFields) :
    Dev.Keeps [.data, .ctl, .eng, .slots, .handovers, .sched] d (Dev.formPut f d).1 := by
  simp only [Dev.formPut]
  (try repeat' split) <;> simp

theorem formDel_keeps (d : Dev) (b : Nat) :
    Dev.Keeps [.data, .ctl, .eng, .slots, .handovers, .sched] d (Dev.formDel b d).1 := by
  simp only [Dev.formDel]
  (try repeat' split) <;> simp

theorem formGet_keeps (d : Dev) (q : FormQuery) :
    Dev.Keeps [] d (Dev.formGet q d).1 := by
  simp only [Dev.formGet]
  (try repeat' split) <;> simp

theorem markPut_keeps (d : Dev) (f : MarkFields) :
    Dev.Keeps [.data, .ctl, .eng, .slots, .handovers, .sched] d (Dev.markPut f d).1 := by
  simp only [Dev.markPut]
  (try repeat' split) <;> simp

theorem markDel_keeps (d : Dev) (n : Text) :
    Dev.Keeps [.data, .ctl, .eng, .slots, .handovers, .sched] d (Dev.markDel n d).1 := by
  simp only [Dev.markDel]
  (try repeat' split) <;> simp

theorem markGet_keeps (d : Dev) (q : MarkQuery) :
    Dev.Keeps [] d (Dev.markGet q d).1 := by
  simp only [Dev.markGet]
  (try repeat' split) <;> simp

theorem cuePut_keeps (d : Dev) (f : CueFields) :
    Dev.Keeps [.data, .sched, .notices] d (Dev.cuePut f d).1 := by
  simp only [Dev.cuePut]
  (try repeat' split) <;> simp

theorem cueDel_keeps (d : Dev) (n : Nat) :
    Dev.Keeps [.data, .sched, .notices] d (Dev.cueDel n d).1 := by
  simp only [Dev.cueDel]
  (try repeat' split) <;> simp

theorem cueGet_keeps (d : Dev) (q : CueQuery) :
    Dev.Keeps [] d (Dev.cueGet q d).1 := by
  simp only [Dev.cueGet]
  (try repeat' split) <;> simp

theorem cueFire_keeps (d : Dev) (n : Nat) :
    Dev.Keeps [.sched, .notices, .handovers] d (Dev.cueFire n d).1 := by
  simp only [Dev.cueFire]
  split
  · simp
  · exact (keeps_foldl _ _ fun d x => by simp).2 keeps_refl

theorem notePut_keeps (d : Dev) (i : Fin 64) (t : Text) :
    Dev.Keeps [.data] d (Dev.notePut i t d).1 := by
  simp only [Dev.notePut]
  (try repeat' split) <;> simp

theorem slotFilter_keeps (d : Dev) (f : FilterFields) :
    Dev.Keeps [.data, .slots, .link, .handovers] d (Dev.slotFilter f d).1 := by
  simp only [Dev.slotFilter]
  (try repeat' split) <;> simp

theorem slotGet_keeps (d : Dev) (i : SlotId) :
    Dev.Keeps [] d (Dev.slotGet i d).1 := by
  simp only [Dev.slotGet]
  simp

theorem slotRetry_keeps (d : Dev) (i : Option SlotId) :
    Dev.Keeps [.slots, .link, .handovers] d (Dev.slotRetry i d).1 := by
  simp only [Dev.slotRetry]
  repeat' split
  · rw [keeps_slotEvent (by simp) (by simp)]; simp
  · simp
  · rw [keeps_slotEvent (by simp) (by simp)]
    exact (keeps_foldl _ _ fun d x => by simp).2 keeps_refl

theorem stationSet_keeps (d : Dev) (n : Fin 16) (p : Permission) :
    Dev.Keeps [.data] d (Dev.stationSet n p d).1 := by
  simp only [Dev.stationSet]
  (try repeat' split) <;> simp

theorem stationGet_keeps (d : Dev) (n : Fin 16) :
    Dev.Keeps [] d (Dev.stationGet n d).1 := by
  simp only [Dev.stationGet]
  simp

theorem srcSet_keeps (d : Dev) (x : Src) (f : SrcFields) :
    Dev.Keeps [.data, .handovers] d (Dev.srcSet x f d).1 := by
  simp only [Dev.srcSet]
  (try repeat' split) <;> simp

theorem srcGet_keeps (d : Dev) (x : Src) :
    Dev.Keeps [] d (Dev.srcGet x d).1 := by
  simp only [Dev.srcGet]
  simp

theorem engineSet_keeps (d : Dev) (f : EngineFields) :
    Dev.Keeps [.data, .arb] d (Dev.engineSet f d).1 := by
  simp only [Dev.engineSet]
  (try repeat' split) <;> simp

theorem focusPin_keeps (d : Dev) (x : Src) :
    Dev.Keeps [.eng, .arb, .notices, .handovers] d (Dev.focusPin x d).1 := by
  simp only [Dev.focusPin]
  simp

theorem focusFree_keeps (d : Dev) (c : Bool) :
    Dev.Keeps [.eng, .arb, .notices, .handovers] d (Dev.focusFree c d).1 := by
  simp only [Dev.focusFree]
  (try repeat' split) <;> simp

theorem portTap_keeps (d : Dev) (t : Time) :
    Dev.Keeps [.eng, .arb, .notices, .handovers] d (Dev.portTap t d).1 := by
  simp only [Dev.portTap]
  simp

theorem roomSet_keeps (d : Dev) (r : Fin 4) (f : RoomFields) :
    Dev.Keeps [.data, .rooms, .notices] d (Dev.roomSet r f d).1 := by
  simp only [Dev.roomSet]
  (try repeat' split) <;> simp

theorem laneSet_keeps (d : Dev) (l : Fin 8) (f : LaneFields) :
    Dev.Keeps [.data, .lanes] d (Dev.laneSet l f d).1 := by
  simp only [Dev.laneSet]
  (try repeat' split) <;> simp

theorem videoSet_keeps (d : Dev) (f : VideoFields) :
    Dev.Keeps [.data, .rooms, .video, .notices] d (Dev.videoSet f d).1 := by
  simp only [Dev.videoSet]
  (try repeat' split) <;> simp

theorem outSet_keeps (d : Dev) (r : Fin 6) (f : OutFields) :
    Dev.Keeps [.data, .video] d (Dev.outSet r f d).1 := by
  simp only [Dev.outSet]
  (try repeat' split) <;> simp

theorem ovlText_keeps (d : Dev) (g : PageSel) (r c : Nat) (t : Text) :
    Dev.Keeps [.data] d (Dev.ovlText g r c t d).1 := by
  simp only [Dev.ovlText]
  (try repeat' split) <;> simp

theorem ovlFlash_keeps (d : Dev) (g : PageSel) (r c n : Nat) (b : Bool) :
    Dev.Keeps [.data] d (Dev.ovlFlash g r c n b d).1 := by
  simp only [Dev.ovlFlash]
  (try repeat' split) <;> simp

theorem ovlField_keeps (d : Dev) (f : Field) (p : Option Place) :
    Dev.Keeps [.data] d (Dev.ovlField f p d).1 := by
  simp only [Dev.ovlField]
  cases p <;> simp only <;> repeat' split
  all_goals simp

theorem takeArm_keeps (d : Dev) (x : Armed) :
    Dev.Keeps [.ctl, .eng, .arb, .sched, .slots, .link, .lanes, .video, .notices, .handovers] d (d.takeArm x) := by
  simp only [Dev.takeArm]
  split <;> simp

theorem arm_keeps (d : Dev) (n : Text) :
    Dev.Keeps [.ctl, .eng, .arb, .sched, .slots, .link, .lanes, .video, .notices, .handovers] d (Dev.arm n d).1 := by
  simp only [Dev.arm]
  repeat' split
  all_goals (with_reducible first | exact keeps_refl | exact takeArm_keeps _ _)

theorem go_keeps (d : Dev) (b : Bool) :
    Dev.Keeps [.ctl, .eng, .notices, .handovers] d (Dev.go b d).1 := by
  simp only [Dev.go, Dev.startRun]
  (try repeat' split) <;> simp

theorem stop_keeps (d : Dev) (r : Option Nat) :
    Dev.Keeps [.ctl, .eng, .slots, .link, .handovers, .notices] d (Dev.stop r d).1 := by
  simp only [Dev.stop]
  (try repeat' split) <;> simp

theorem stopClear_keeps (d : Dev) (h : Holder) :
    Dev.Keeps [.ctl, .handovers, .notices, .link] d (Dev.stopClear h d).1 := by
  simp only [Dev.stopClear]
  (try repeat' split) <;> simp

theorem vampOut_keeps (d : Dev) :
    Dev.Keeps [.eng, .notices] d (Dev.vampOut d).1 := by
  simp only [Dev.vampOut]
  (try repeat' split) <;> simp

theorem showSave_keeps (d : Dev) :
    Dev.Keeps [.store] d (Dev.showSave d).1 := by
  simp only [Dev.showSave]
  (try repeat' split) <;> simp

theorem afterData_keeps (d : Dev) (x : ShowData) :
    Dev.Keeps [.eng, .arb, .rooms, .lanes, .sched, .slots, .link, .video, .ctl, .notices, .handovers]
      d (d.afterData x) := by
  simp only [Dev.afterData]
  (try repeat' split) <;> simp

theorem replaceData_keeps (d : Dev) (x : ShowData) (c : ShowCause) :
    Dev.Keeps [.data, .eng, .arb, .rooms, .lanes, .sched, .slots, .link, .video, .ctl, .notices, .handovers, .port]
      d (d.replaceData x c) := by
  have h : Dev.Keeps [.data, .eng, .arb, .rooms, .lanes, .sched, .slots, .link, .video, .ctl, .notices, .handovers, .port] d ((d.setData x).afterData d.data) :=
    keeps_trans (b := d.setData x) (by simp) (keeps_mono (by simp) (afterData_keeps _ _))
  simp only [Dev.replaceData]
  rw [keeps_handRecord (by simp)]
  split
  · exact h
  · exact (keeps_setShowState (by simp) (by simp) (by simp)).2 h

theorem showLoad_keeps (d : Dev) :
    Dev.Keeps [.data, .eng, .arb, .rooms, .lanes, .sched, .slots, .link, .video, .ctl, .notices, .handovers, .port]
      d (Dev.showLoad d).1 := by
  simp only [Dev.showLoad]
  split
  · simp
  · split
    · simp
    · simp only [replaceData_keeps]

theorem showErase_keeps (d : Dev) :
    Dev.Keeps [.data, .eng, .arb, .rooms, .lanes, .sched, .slots, .link, .video, .ctl, .notices, .handovers, .port, .store]
      d (Dev.showErase d).1 := by
  simp only [Dev.showErase]
  split
  · exact keeps_refl
  · have h : Dev.Keeps [.data, .eng, .arb, .rooms, .lanes, .sched, .slots, .link, .video, .ctl, .notices, .handovers, .port, .store] d (d.replaceData .default .erase) :=
      keeps_mono (by simp) (replaceData_keeps _ _ _)
    exact (keeps_setStore (by simp)).2 h

theorem startShow_keeps (d : Dev) (b : Option ShowState) :
    Dev.Keeps [.ctl, .eng, .slots, .link, .handovers, .notices] d (d.startShow b) := by
  simp only [Dev.startShow]
  (try repeat' split) <;> simp

/-! ### Events -/

theorem saveComplete_keeps (d : Dev) (x : BitVec 16) :
    Dev.Keeps [.store, .notices, .fresh] d (d.saveComplete x) := by
  simp only [Dev.saveComplete]
  (try repeat' split) <;> simp

theorem lineChange_keeps (d : Dev) (l : StopLine) (x : Level) :
    Dev.Keeps [.ctl] d (d.lineChange l x) := by
  simp only [Dev.lineChange]
  (try repeat' split) <;> simp

theorem lineTaken_keeps (d : Dev) (l : StopLine) :
    Dev.Keeps [.ctl, .eng, .slots, .link, .handovers, .notices] d (d.lineTaken l) := by
  simp only [Dev.lineTaken]
  (try repeat' split) <;> simp

theorem vampReport_keeps (d : Dev) (n : Fin 16) :
    Dev.Keeps [.eng, .notices] d (d.vampReport n) := by
  simp only [Dev.vampReport]
  (try repeat' split) <;> simp

theorem patchAction_keeps (d : Dev) (x : PatchAction) :
    Dev.Keeps [.slots, .link, .handovers] d (d.patchAction x) := by
  rw [Dev.patchAction, keeps_slotEvent (by simp) (by simp)]
  exact (keeps_foldl _ _ fun d x => by simp).2 keeps_refl

theorem lateCheck_keeps (d : Dev) (n : Nat) (l : List PatchAction) :
    Dev.Keeps [.notices] d (d.lateCheck n l) := by
  exact (keeps_foldl _ _ fun d x => by simp).2 keeps_refl

theorem deadlinePassed_keeps (d : Dev) (i : SlotId) :
    Dev.Keeps [.slots, .link, .handovers, .notices] d (d.deadlinePassed i) := by
  simp only [Dev.deadlinePassed]
  split
  · rw [keeps_slotEvent (by simp) (by simp)]
    repeat' split
    all_goals simp
  · simp

theorem patchOutcome_keeps (d : Dev) (i : SlotId) (p : Nat) (x : FrameStatus) :
    Dev.Keeps [.slots, .link, .handovers, .notices] d (d.patchOutcome i p x) := by
  simp only [Dev.patchOutcome]
  split
  · rw [keeps_slotEvent (by simp) (by simp)]
    repeat' split
    all_goals simp
  · simp

theorem appliedReport_keeps (d : Dev) (i : SlotId) (p : Nat) (x : ApplyResult) :
    Dev.Keeps [.slots, .link, .handovers, .notices] d (d.appliedReport i p x) := by
  simp only [Dev.appliedReport]
  split
  · rw [keeps_slotEvent (by simp) (by simp)]
    repeat' split
    all_goals simp
  · simp

theorem beaconComplete_keeps (d : Dev) :
    Dev.Keeps [.link] d d.beaconComplete := by
  simp only [Dev.beaconComplete]
  (try repeat' split) <;> simp

theorem patchComplete_keeps (d : Dev) (x : FrameStatus) :
    Dev.Keeps [.link, .notices, .handovers] d (d.patchComplete x) := by
  simp only [Dev.patchComplete]
  (try repeat' split) <;> simp

theorem stopComplete_keeps (d : Dev) (x : FrameStatus) :
    Dev.Keeps [.link] d (d.stopComplete x) := by
  simp only [Dev.stopComplete]
  (try repeat' split) <;> simp

theorem clearComplete_keeps (d : Dev) (x : FrameStatus) :
    Dev.Keeps [.link, .notices, .handovers] d (d.clearComplete x) := by
  simp only [Dev.clearComplete]
  (try repeat' split) <;> simp

theorem pollComplete_keeps (d : Dev) (x : FrameStatus) (l : List Byte) :
    Dev.Keeps [.link, .notices, .handovers] d (d.pollComplete x l) := by
  simp only [Dev.pollComplete]
  (try repeat' split) <;> simp

theorem beatNotices_keeps (d : Dev) (m : BeatMark) :
    Dev.Keeps [.notices] d (d.beatNotices m) := by
  simp only [Dev.beatNotices]
  (try repeat' split) <;> simp

theorem newCount_keeps (d : Dev) (n : Nat) :
    Dev.Keeps [.ctl, .notices, .handovers] d (d.newCount n) := by
  simp only [Dev.newCount]
  (try repeat' split) <;> simp

theorem actEnded_keeps (d : Dev) :
    Dev.Keeps [.ctl, .eng, .slots, .sched, .notices, .handovers] d d.actEnded := by
  simp only [Dev.actEnded]
  (try repeat' split) <;> simp

theorem markBeaten_keeps (d : Dev) :
    Dev.Keeps [.ctl, .notices, .handovers] d d.markBeaten := by
  simp only [Dev.markBeaten]
  (try repeat' split) <;> simp

end Sys2Proof.Machine
end

