-- ==== Sys2Proof/Laws/Safety.lean ====
section
/-! SUPPORT. The invariants of the slots and the patch queue, read off one slot at a time. -/

namespace Sys2Proof.Machine

/-- What `Dev.slotsOk` asks of one slot. -/
def Dev.rowOk (d : Dev) (i : SlotId) : Bool :=
  let r := d.slot i
  (!r.chase || (r.req != .idle && r.req != .fault)) &&
    (d.link.queue.filter (fun e => e.slot == i)).map QueueEntry.patch == (if r.waits then r.reqPatch.toList else []) &&
    (!r.waits || (r.desired == r.reqPatch && r.reqPatch.isSome))

/-- A queue holds a patch for a slot exactly when the patch is among the slot's entries. -/
theorem mem_queue_iff (q : List QueueEntry) (i : SlotId) (p : Nat) :
    ⟨i, p⟩ ∈ q ↔ p ∈ (q.filter fun e => e.slot == i).map QueueEntry.patch := by
  simp only [List.mem_map, List.mem_filter, beq_iff_eq]
  constructor
  · intro h; exact ⟨⟨i, p⟩, ⟨h, rfl⟩, rfl⟩
  · rintro ⟨⟨j, r⟩, ⟨h, rfl⟩, rfl⟩; exact h

/-- `Dev.slotsOk` from its rows. -/
theorem slotsOk_of_rows (d : Dev) (h : ∀ (n : Fin 16) (l : Fin 4), d.rowOk ⟨n, l⟩ = true)
    (hn : (d.link.queue.map QueueEntry.slot).Nodup) : d.slotsOk := by
  have row : ∀ i, d.rowOk i = true := fun i => h i.station i.letter
  simp only [Dev.rowOk, Bool.and_eq_true, Bool.or_eq_true, Bool.not_eq_true', bne_iff_ne, ne_eq, beq_iff_eq] at row
  refine ⟨fun i hc => ?_, ⟨hn, fun i p => ?_⟩, fun i hw => ?_⟩
  · rcases (row i).1.1 with h | h
    · simp [hc] at h
    · exact h
  · rw [mem_queue_iff, (row i).1.2]
    by_cases hw : (d.slot i).waits = true
    · rw [if_pos hw]
      simp only [SlotRun.waits, Bool.and_eq_true, beq_iff_eq, Bool.not_eq_true'] at hw
      simp [hw.1, hw.2]
    · rw [if_neg hw]
      simp only [SlotRun.waits, Bool.and_eq_true, beq_iff_eq, Bool.not_eq_true', not_and] at hw
      constructor
      · simp
      · rintro ⟨h1, h2, -⟩; exact absurd h2 (hw h1)
  · rcases (row i).2 with h | h
    · simp [hw] at h
    · exact h

/-- The lanes' invariant from its rows. -/
theorem lanesOk_of_empty (d : Dev) (h : ∀ l : Fin 8, d.lanes[l].queue = []) : d.lanesOk := by
  intro l
  unfold LaneRun.queueOk
  rw [h l]
  exact ⟨Nat.zero_le _, List.Pairwise.nil⟩

/-- A cue's record is one of the scheduler's, or the record of a cue that has none. -/
theorem run_mem_or (s : Sched) (n : Nat) : s.run n ∈ s.runs ∨ s.run n = .start n := by
  unfold Sched.run
  cases h : s.runs.find? fun r => r.num == n with
  | none => exact .inr rfl
  | some r => exact .inl (List.mem_of_find?_eq_some h)

/-- `Dev.schedOk` from the scheduler's records. -/
theorem schedOk_of_runs (d : Dev) (h : ∀ r ∈ d.sched.runs, r.sendCond.time.isSome = true → r.send.isSome = true) :
    d.schedOk := by
  intro n t hc
  rcases run_mem_or d.sched n with hm | hm
  · exact h _ hm (by rw [hc]; rfl)
  · rw [hm] at hc; cases hc

/-- Distinct ranks from their list. -/
theorem ranksOk_of (p : PerSrc SrcSet) (h : (Src.all.map fun x => (p.get x).rank).Nodup)
    (hr : ∀ x ∈ Src.all, 1 ≤ (p.get x).rank ∧ (p.get x).rank ≤ 5) : ranksOk p := by
  refine ⟨fun x => hr x (by cases x <;> decide), fun x y e => ?_⟩
  simp only [Src.all, List.map_cons, List.map_nil, List.nodup_cons, List.mem_cons, not_or] at h
  revert e
  cases x <;> cases y <;> intro e <;> first | rfl | (exfalso; omega)

/-- The tables of a copy of the show data, from what can be evaluated. -/
theorem tablesOk_of (s : ShowData)
    (h : (Src.all.map fun x => (s.srcs.get x).rank).Nodup ∧
      ∀ x ∈ Src.all, 1 ≤ (s.srcs.get x).rank ∧ (s.srcs.get x).rank ≤ 5)
    (ht : (s.form.length ≤ Config.formCapacity ∧ (s.form.Pairwise fun a b => a.last < b.first) ∧
        ∀ e ∈ s.form, 1 ≤ e.first ∧ 1 ≤ e.count ∧ 1 ≤ e.meter ∧ e.meter ≤ 15 ∧ periodOk e.nominal = true ∧
          e.agrees = true) ∧
      (s.marks.length ≤ Config.markCapacity ∧ (s.marks.map Mark.name).Nodup ∧
        s.marks.Pairwise fun a b => a.before b = true) ∧
      (s.cues.length ≤ Config.cueCapacity ∧ (s.cues.map Cue.num).Nodup ∧
        (s.cues.Pairwise fun a b => a.before b = true) ∧ poolSize s.cues ≤ Config.actionCapacity) ∧
      ∀ r q : Fin 4, s.rooms[r].out.isSome = true → s.rooms[r].out = s.rooms[q].out → r = q) : s.tablesOk :=
  ⟨ht.1, ht.2.1, ht.2.2.1, ranksOk_of _ h.1 h.2, ht.2.2.2⟩

end Sys2Proof.Machine
end

