-- ==== Sys2Proof/Tests/Slice0.lean ====
section
/-! SUPPORT. The package's own tests: ill-formed commands the check refuses, the manual's worked examples, and for
every statement with hypotheses a state and operands that meet them. -/

namespace Sys2Proof.Tests
open Sys2Proof.Machine

set_option Elab.async false

/-! ## A small show, and states it can be in -/

/-- Bars 1 to 4, 4 beats, follow, 120 beats per minute in band 8. -/
def e1 : FormEntry := ⟨1, 4, 4, some 500000, .nominal, 8, .follow, none, [], false⟩
/-- Bars 5 and 6, 3 beats, a vamp that leads, one warn bar. -/
def e2 : FormEntry := ⟨5, 2, 3, none, .keep, 0, .lead, some 1, [], false⟩
/-- Bar 7, 4 beats, a hold on beat 3, the act's end. -/
def e3 : FormEntry := ⟨7, 1, 4, some 600000, .nominal, 0, .follow, none, [⟨7, 3⟩], true⟩
def form : List FormEntry := [e1, e2, e3]
def mark : Mark := ⟨ascii "ACT1", ⟨1, 1⟩, 1, none⟩
def cueA : Cue := ⟨10, ⟨2, 1, 0⟩, 2, [.patch ⟨0x101#12, 410⟩, .note (some 3)]⟩
def cueB : Cue := ⟨25, ⟨2, 2, 240⟩, 0, [.lane 0 .muted none]⟩
/-- A cue whose beat is not in the form. -/
def cueC : Cue := ⟨30, ⟨9, 1, 0⟩, 0, [.note none]⟩

def data : ShowData := { ShowData.default with
  form := form
  marks := [mark]
  cues := [cueA, cueB, cueC]
  slots := ShowData.default.slots.set 4 ⟨some ⟨0x101#12, 0x000#12⟩, some 7⟩
  rooms := ShowData.default.rooms.set 0 ⟨0, 0, some 2, ascii "ROOM1"⟩ }

/-- The part after reset with the small show, in DARK. -/
def dark : Dev := { Dev.reset with data := data }
def inShow (st : ShowState) (d : Dev) : Dev := { d with ctl := { d.ctl with state := st } }
/-- The small show armed at its mark, in a show state. -/
def armed (st : ShowState) : Dev := { dark with
  ctl := { Control.start with state := st, armed := some ⟨mark, 1⟩ }
  eng := { Engine.start with prepared := some ⟨⟨1, 1⟩, 1, 1, 4, 500000⟩ }
  sched := { Sched.start with
    runs := data.cues.map (markAtArm form ⟨1, 1⟩)
    ctx := some ⟨⟨1, 1⟩, none⟩ } }
/-- An engine that runs at a beat of an entry, whose due time is 2 000 000. -/
def runAt (p : Pos) (i : Nat) : Engine := { Engine.start with
  st := .run
  due := some 2000000
  last := some 1500000
  pos := some p
  entry := some i
  window := 125000
  beatNo := 5
  closes := [⟨⟨5, p⟩, 1625000, true, false⟩] }
def running (g : Engine) : Dev := { armed .running with eng := g, clock := 1500000 }
/-- A holder. -/
def held (x : Src) (st : HolderStatus) (d : Dev) : Dev := d.setArb { d.arb with focus := some ⟨x, st⟩ }
def on (d : Dev) : State := ⟨d, []⟩
/-- The slot of station 2, letter A: the fifth in slot order. -/
def slotA : SlotId := ⟨1, 0⟩
/-- Station 2 joined with one slot whose record is given. -/
def joined (r : SlotRun) (d : Dev) : Dev := { d with
  slots := d.slots.set 4 r
  link := { d.link with stations := d.link.stations.set 1 ⟨.active, 0, 0, 1, none, 0⟩ } }
def slotIn (req : Req) (p : Option Nat) : SlotRun := ⟨true, p, none, req, p, some 1, false, false, none⟩
/-- A frame in flight. -/
def busy (k : FrameKind) (d : Dev) : Dev := d.setLink { d.link with line := some ⟨k, 1, []⟩ }

/-! ## Ill-formed commands -/

theorem test_wf_request_tags : (Instr.reset 0).wf = false ∧ (Instr.reset 256).wf = false ∧
    (Instr.reset 1).wf = true ∧ (Instr.reset 255).wf = true ∧ Instr.powerOn.wf = true := by decide

def goodForm : FormFields := ⟨1, 4, 4, none, none, none, none, none, [], false⟩

theorem test_wf_form_fields :
    (Instr.formPut 1 goodForm).wf = true ∧
    (Instr.formPut 1 { goodForm with first := 0 }).wf = false ∧
    (Instr.formPut 1 { goodForm with count := 1000 }).wf = false ∧
    (Instr.formPut 1 { goodForm with meter := 16 }).wf = false ∧
    (Instr.formPut 1 { goodForm with nominal := some 199999 }).wf = false ∧
    (Instr.formPut 1 { goodForm with band := some 33 }).wf = false ∧
    (Instr.formPut 1 { goodForm with vamp := some 3 }).wf = false ∧
    (Instr.formPut 1 { goodForm with holds := [⟨1, 16⟩] }).wf = false ∧
    (Instr.formPut 1 { goodForm with holds := List.replicate 5 ⟨1, 1⟩ }).wf = false ∧
    (Instr.formDel 1 0).wf = false ∧ (Instr.formGet 1 (.bar 10000)).wf = false ∧
    (Instr.formGet 1 (.after 10000)).wf = false := by decide

theorem test_wf_mark_fields :
    (Instr.markPut 1 ⟨ascii "ACT-1.B", ⟨9999, 15⟩, some 0, none⟩).wf = true ∧
    (Instr.markPut 1 ⟨[], ⟨1, 1⟩, none, none⟩).wf = false ∧
    (Instr.markPut 1 ⟨ascii "ACT1ACT1X", ⟨1, 1⟩, none, none⟩).wf = false ∧
    (Instr.markPut 1 ⟨ascii "act1", ⟨1, 1⟩, none, none⟩).wf = false ∧
    (Instr.markPut 1 ⟨ascii "A", ⟨0, 1⟩, none, none⟩).wf = false ∧
    (Instr.markPut 1 ⟨ascii "A", ⟨1, 1⟩, some 3, none⟩).wf = false ∧
    (Instr.markPut 1 ⟨ascii "A", ⟨1, 1⟩, none, some 2000001⟩).wf = false ∧
    (Instr.markDel 1 []).wf = false ∧ (Instr.markGet 1 (.after (ascii "A B"))).wf = false ∧
    (Instr.arm 1 (ascii "a")).wf = false := by decide +kernel

theorem test_wf_cue_fields :
    (Instr.cuePut 1 ⟨9999, ⟨1, 1, 479⟩, some 16, [.note none]⟩).wf = true ∧
    (Instr.cuePut 1 ⟨0, ⟨1, 1, 0⟩, none, [.note none]⟩).wf = false ∧
    (Instr.cuePut 1 ⟨1, ⟨1, 1, 480⟩, none, [.note none]⟩).wf = false ∧
    (Instr.cuePut 1 ⟨1, ⟨1, 1, 0⟩, some 17, [.note none]⟩).wf = false ∧
    (Instr.cuePut 1 ⟨1, ⟨1, 1, 0⟩, none, []⟩).wf = false ∧
    (Instr.cuePut 1 ⟨1, ⟨1, 1, 0⟩, none, List.replicate 9 (.note none)⟩).wf = false ∧
    (Instr.cuePut 1 ⟨1, ⟨1, 1, 0⟩, none, [.patch ⟨0#12, 16384⟩]⟩).wf = false ∧
    (Instr.cuePut 1 ⟨1, ⟨1, 1, 0⟩, none, [.lane 0 .muted (some 5)]⟩).wf = false ∧
    (Instr.cueDel 1 10000).wf = false ∧ (Instr.cueGet 1 (.num 0)).wf = false ∧ (Instr.cueFire 1 0).wf = false ∧
    (Instr.notePut 1 0 (List.replicate 33 32)).wf = false ∧ (Instr.notePut 1 0 [31#8]).wf = false := by decide

theorem test_wf_settings :
    (Instr.slotFilter 1 (.slot slotA (.maskAlone 0#12) .left)).wf = false ∧
    (Instr.slotFilter 1 (.slot slotA .left (.patch 16384))).wf = false ∧
    (Instr.slotFilter 1 (.timeout 99)).wf = false ∧ (Instr.slotFilter 1 (.timeout 10001)).wf = false ∧
    (Instr.srcSet 1 .tap1 ⟨some 6, none, none, none, none⟩).wf = false ∧
    (Instr.srcSet 1 .tap1 ⟨none, none, some 19, none, none⟩).wf = false ∧
    (Instr.srcSet 1 .tap1 ⟨none, none, none, none, some (ascii "TOOLONG")⟩).wf = false ∧
    (Instr.srcSet 1 .port ⟨none, some .both, none, none, none⟩).wf = false ∧
    (Instr.srcSet 1 .port ⟨none, none, some 20, none, none⟩).wf = false ∧
    (Instr.engineSet 1 ⟨some 3, none, none, none, none⟩).wf = false ∧
    (Instr.engineSet 1 ⟨none, some 17, none, none, none⟩).wf = false ∧
    (Instr.engineSet 1 ⟨none, none, some 17, none, none⟩).wf = false ∧
    (Instr.engineSet 1 ⟨none, none, none, some 0, none⟩).wf = false ∧
    (Instr.engineSet 1 ⟨none, none, none, none, some 5⟩).wf = false ∧
    (Instr.tap 1 281474976710656).wf = false := by decide +kernel

theorem test_wf_outputs :
    (Instr.roomSet 1 0 ⟨some 200001, none, none, none⟩).wf = false ∧
    (Instr.roomSet 1 0 ⟨none, some 250001, none, none⟩).wf = false ∧
    (Instr.roomSet 1 0 ⟨none, none, none, some []⟩).wf = false ∧
    (Instr.laneSet 1 0 ⟨none, some 5, none, none, none⟩).wf = false ∧
    (Instr.laneSet 1 0 ⟨none, none, none, some 16, none⟩).wf = false ∧
    (Instr.videoSet 1 ⟨none, some 7⟩).wf = false ∧ (Instr.outSet 1 0 ⟨none, some 9, none⟩).wf = false ∧
    (Instr.ovlText 1 .run 3 1 []).wf = false ∧ (Instr.ovlFlash 1 .run 1 33 1 true).wf = false ∧
    (Instr.ovlField 1 .note (some ⟨1, 2⟩)).wf = false ∧ (Instr.ovlField 1 .bar (some ⟨2, 29⟩)).wf = true ∧
    (Instr.stop 1 (some 256)).wf = false := by decide

theorem test_wf_events :
    (Instr.beatMarkCue ⟨0, ⟨1, 1⟩, .beat, 500000, 1, 0, false, none⟩).wf = true ∧
    (Instr.beatMarkClick ⟨0, ⟨1, 0⟩, .beat, 500000, 1, 0, false, none⟩).wf = false ∧
    (Instr.beatMarkVideo ⟨0, ⟨1, 1⟩, .beat, 100000, 1, 0, false, none⟩).wf = false ∧
    (Instr.beatMarkPort ⟨0, ⟨1, 1⟩, .beat, 500000, 0, 0, false, none⟩).wf = false ∧
    (Instr.beatMarkCue ⟨0, ⟨1, 1⟩, .count, 500000, 1, 0, false, some 31⟩).wf = false ∧
    (Instr.patchAction 0 ⟨0#12, 0⟩).wf = false ∧ (Instr.laneAction 0 .opened (some 0)).wf = false ∧
    (Instr.lateCheck 1 (List.replicate 9 ⟨0#12, 0⟩) .fired).wf = false ∧
    (Instr.pollFrameComplete 0x3C#8 [0#8]).wf = false ∧ (Instr.patchOutcome slotA 16384 .ack).wf = false ∧
    (Instr.appliedReport slotA 16384 .ok).wf = false ∧ (Instr.helloResync 0 5).wf = false ∧
    (Instr.chasePendingCount 65).wf = false ∧ (Instr.focusHandoverVideo (some ⟨.tap1, none, []⟩)).wf = false := by
  decide

/-! ## The manual's worked examples -/

/-- A request line read and run: the part after it, and the reply line. -/
def ask (d : Dev) (l : String) : Dev × Text :=
  match readTag (ascii l) with
  | none => (d, [])
  | some (tag, rest) =>
    match readRequest tag d.clock rest with
    | .error c => (d, Reply.spell ⟨tag, .no c⟩)
    | .ok i =>
      match exec i (on d) with
      | .next t => (t.dev, (t.dev.port.reply.map Reply.spell).getD [])
      | _ => (d, [])

/-- The replies to some request lines in turn. -/
def talk (d : Dev) : List String → List Text
  | [] => []
  | l :: ls => (ask d l).2 :: talk (ask d l).1 ls

/-- The part after some request lines. -/
def after (d : Dev) (ls : List String) : Dev := ls.foldl (fun d l => (ask d l).1) d

/-- The part after a command. -/
def ran (i : Instr) (d : Dev) : Dev :=
  match exec i (on d) with
  | .next t => t.dev
  | _ => d

/-- Spec 01, "Worked band limits". -/
theorem test_band_limits :
    let lim (n band : Nat) := ({ e1 with nominal := some n, band := band } : FormEntry).limits
    lim 500000 4 = (468750, 531250) ∧ lim 333333 5 = (307292, 359374) ∧ lim 210000 32 = (200000, 315000) ∧
    lim 1900000 8 = (1662500, 2000000) ∧ lim 750000 0 = (200000, 2000000) ∧ e2.limits = (200000, 2000000) ∧
    [468750, 531250, 307292, 359374, 200000, 315000, 1662500, 2000000].map tempoShown =
      [128, 113, 195, 167, 300, 190, 36, 30] := by decide +kernel

/-- Spec 01, "Examples" of the form, with mark TOP at 1:1 and the marks of section 1.4. -/
theorem test_form_and_mark_requests : talk
    { Dev.reset with data := { ShowData.default with marks := [⟨ascii "TOP", ⟨1, 1⟩, 1, none⟩] } }
    ["#1 FORM.PUT BAR=1 BARS=8 METER=4 PERIOD=500000 BAND=4", "#2 FORM.PUT BAR=11 BARS=4 METER=4 VAMP=1 MODE=LEAD",
     "#3 FORM.PUT BAR=14 BARS=3 METER=2", "#4 FORM.PUT BAR=15 BARS=2 METER=2 PERIOD=750000 HOLD=16:2 END",
     "#5 FORM.PUT BAR=17 BARS=4 METER=4 BAND=6", "#6 FORM.GET", "#7 ARM TOP",
     "#8 FORM.PUT BAR=9 BARS=2 METER=3 PERIOD=600000 POLICY=KEEP", "#9 FORM.GET", "#10 FORM.GET 12",
     "#20 MARK.PUT NAME=TAG AT=9:4", "#21 ARM TAG", "#22 MARK.PUT NAME=TAG AT=9:3 COUNTIN=2 TEMPO=580000",
     "#23 MARK.GET FIRST", "#24 MARK.GET AFTER TOP"] =
    ["#1 OK 1", "#2 OK 2", "#3 NO OVERLAP", "#4 OK 3", "#5 NO RANGE", "#6 OK 3 LAST=16 COVER=NO", "#7 NO GAP",
     "#8 OK 2", "#9 OK 4 LAST=16 COVER=YES",
     "#10 OK 3 BAR=11 BARS=4 METER=4 POLICY=KEEP BAND=0 MODE=LEAD VAMP=1 LO=200000 HI=2000000", "#20 OK 2",
     "#21 NO RANGE", "#22 OK 2", "#23 OK NAME=TOP AT=1:1 COUNTIN=1",
     "#24 OK NAME=TAG AT=9:3 COUNTIN=2 TEMPO=580000"].map ascii := by decide +kernel

/-- The form of the worked lead walks. -/
def walked : List FormEntry :=
  [⟨1, 8, 4, some 500000, .nominal, 4, .follow, none, [], false⟩, ⟨9, 2, 3, some 600000, .keep, 0, .follow, none, [], false⟩,
    ⟨11, 4, 4, none, .keep, 0, .lead, some 1, [], false⟩,
    ⟨15, 2, 2, some 750000, .nominal, 0, .follow, none, [⟨16, 2⟩], true⟩]

/-- Spec 01, "Worked lead walks". -/
theorem test_lead_walks :
    leadWalk walked ⟨12, 1, 0⟩ 6 = ⟨10, 2, 0⟩ ∧ leadWalk walked ⟨9, 2, 240⟩ 3 = ⟨8, 3, 240⟩ ∧
    leadWalk walked ⟨15, 1, 0⟩ 0 = ⟨15, 1, 0⟩ ∧ leadWalk walked ⟨16, 2, 0⟩ 4 = ⟨14, 4, 0⟩ ∧
    leadWalk walked ⟨1, 3, 120⟩ 2 = ⟨1, 1, 120⟩ ∧ leadWalk walked ⟨1, 3, 120⟩ 5 = ⟨1, 1, 0⟩ := by decide +kernel

/-- The engine of the worked tempo sequence before its first event. -/
def tempo0 : Dev := held .tap1 .active { armed .running with
  data := { data with form := [{ e1 with count := 8, band := 4 }] }
  eng := { Engine.start with
    st := .run, period := 500000, due := some 11000000, last := some 10500000, pos := some ⟨5, 2⟩, entry := some 1
    matchedPrev := true, tm := some 10000000, window := 125000, beatNo := 18 } }

/-- P, N, the two match flags and Tm of an engine. -/
def shows (d : Dev) (p : Nat) (due : Option Time) (m1 m0 : Bool) (tm : Time) : Bool :=
  d.eng.period == p && d.eng.due == due && d.eng.matchedL == m1 && d.eng.matchedPrev == m0 && d.eng.tm == some tm

/-- Spec 02, "Worked tempo sequence", line by line. -/
theorem test_tempo_sequence :
    let d1 := tempo0.routeTap .tap1 10520000
    let d2 := d1.routeTap .tap1 10990000
    let d3 := ran .beatDue (d2.setClock 11486250)
    let d4 := d3.routeTap .tap1 11900000
    let d5 := d4.routeTap .tap1 12380000
    let d6 := d5.routeTap .tap1 12600000
    shows d1 505000 (some 11015000) true true 10520000 ∧
    shows d2 496250 (some 11486250) true true 10990000 ∧ d2.eng.window = 126250 ∧
    shows d3 496250 (some 11982500) false true 10990000 ∧ d3.eng.window = 124062 ∧
    shows d4 496250 (some 12396250) true false 11900000 ∧ d4.eng.pos = some ⟨6, 1⟩ ∧
    shows d5 492188 (some 12872188) true true 12380000 ∧ shows d6 492188 (some 12872188) true true 12380000 ∧
    d6.arb.srcs.tap1.strays = 1 ∧ tempoShown 496250 = 121 ∧ tempoShown 492188 = 122 := by
  decide +kernel

/-- The engine of the worked hold, at the fermata. -/
def hold0 : Dev := held .tap1 .active { armed .running with
  data := { data with form := [⟨20, 8, 3, some 600000, .nominal, 0, .follow, none, [⟨24, 3⟩], false⟩] }
  eng := { Engine.start with
    st := .hold .point, period := 600000, last := some 60000000, pos := some ⟨24, 3⟩, entry := some 1
    matchedPrev := true, tm := some 59410000, window := 150000, beatNo := 9 } }

/-- Spec 02, "Worked hold and release", tap first and GO first. -/
theorem test_hold_and_release :
    let d1 := hold0.routeTap .tap1 60040000
    let byTap := d1.routeTap .tap1 63000000
    let byGo := (d1.goRelease 63000000).routeTap .tap1 63000000
    let d2 := byTap.routeTap .tap1 63600000
    shows d1 607500 none true true 60040000 ∧ shows byTap 607500 (some 63607500) true false 63000000 ∧
    shows byGo 607500 (some 63607500) true false 63000000 ∧ byTap.eng.pos = some ⟨25, 1⟩ ∧
    shows d2 605625 (some 64205625) true true 63600000 := by
  decide +kernel

/-- Spec 04, "Worked alignments", at 50 Hz and at 59.94 Hz. -/
theorem test_alignments :
    let room (cr vr f : Nat) := align ⟨cr, vr, some 0, []⟩ f
    room 3000 45000 20000 = ⟨42000, some 0, 0⟩ ∧ room 3000 45000 16683 = ⟨42000, some 0, 0⟩ ∧
    room 30000 8000 20000 = ⟨18000, some 2, 0⟩ ∧ room 30000 8000 16683 = ⟨11366, some 2, 0⟩ ∧
    room 60000 20000 20000 = ⟨0, some 2, 0⟩ ∧ room 60000 20000 16683 = ⟨10049, some 3, 0⟩ ∧
    room 5000 160000 20000 = ⟨100000, some 0, 55000⟩ ∧ room 5000 160000 16683 = ⟨100000, some 0, 55000⟩ ∧
    room 200000 0 20000 = ⟨0, some 8, 40000⟩ ∧ room 200000 0 16683 = ⟨0, some 8, 66536⟩ ∧
    align ⟨30000, 8000, none, []⟩ 20000 = ⟨0, none, 0⟩ := by decide +kernel

/-- Spec 04, "Example" of ROOM.SET. -/
theorem test_room_requests : talk Dev.reset
    ["#40 ROOM.SET 3 CR=30000 VR=8000 OUT=3 NAME=DRUMS", "#41 ROOM.SET 2 OUT=3", "#42 OUT.SET 3 DELAY=0",
     "#43 ROOM.SET 3 CR=200000", "#44 ROOM.SET 3 CR=30000"] =
    ["#40 OK 3 NAME=DRUMS CR=30000 VR=8000 OUT=3 DV=2 OC=18000 SHORT=0", "#41 NO STATE", "#42 NO STATE",
     "#43 OK 3 NAME=DRUMS CR=200000 VR=8000 OUT=3 DV=8 OC=0 SHORT=32000",
     "#44 OK 3 NAME=DRUMS CR=30000 VR=8000 OUT=3 DV=2 OC=18000 SHORT=0"].map ascii := by decide +kernel

/-- Spec 05, "Examples" of the cue list, in the form of the lead walks. -/
theorem test_cue_requests : talk { Dev.reset with data := { ShowData.default with form := walked } }
    ["#50 NOTE.PUT 5 TEXT=\"WATCH ME - TRAIN ENTR\"", "#51 CUE.PUT 12 AT=12:1 LEAD=6 PATCH=0A1/305 PATCH=0A2/17 NOTE=5",
     "#52 CUE.PUT 12.5 AT=16:2 LANE=8/MUTE", "#53 CUE.PUT 13 AT=16:2.240 LANE=6/OPEN/5", "#54 CUE.GET 12",
     "#55 CUE.DEL 13"] =
    ["#50 OK 5 LEN=21", "#51 OK 12 CUES=1 ACTIONS=3", "#52 OK 12.5 CUES=2 ACTIONS=4", "#53 NO RANGE",
     "#54 OK 12 AT=12:1 LEAD=6 PATCH=0A1/305 PATCH=0A2/17 NOTE=5 SEND=NONE PLACE=NONE SENDSTAGE=UNSPENT ATSTAGE=UNSPENT",
     "#55 NO NOTFOUND"].map ascii := by decide +kernel

/-- Spec 04, "Worked clicks": the beat at 40:1 and the early beat at 40:2, which prunes one subdivision. -/
theorem test_clicks :
    let d0 : Dev := { running Engine.start with
      data := { data with lanes := data.lanes.set 5 ⟨2, 4, true, 12, .opened⟩ }
      rooms := Dev.reset.rooms.set 2 ⟨11366, some 2, 0⟩ }
    let d1 := ran (.beatMarkClick ⟨50000000, ⟨40, 1⟩, .downbeat, 480000, 1, 0, false, none⟩) d0
    let d2 := (List.range 3).foldl (fun d _ => ran (.clickDue 5) d) (d1.setClock 50330000)
    let d3 := ran (.beatMarkClick ⟨50330000, ⟨40, 2⟩, .beat, 480000, 1, 0, false, none⟩) d2
    let look (d : Dev) := d.lanes[(5 : Fin 8)].queue.map fun c => (c.kind, c.level, c.engine, c.due)
    look d1 = [(.accent, 12, 50000000, 50011366), (.sub, 8, 50120000, 50131366), (.sub, 8, 50240000, 50251366),
      (.sub, 8, 50360000, 50371366)] ∧
    look d3 = [(.beat, 10, 50330000, 50341366), (.sub, 8, 50450000, 50461366), (.sub, 8, 50570000, 50581366),
      (.sub, 8, 50690000, 50701366)] := by decide +kernel

/-- Spec 11: the example lines. -/
theorem test_spelled_lines :
    StopRecord.spell ⟨3, .stopped, [.lineA, .station 2, .port], some .lineA, 0, some ⟨52, 3⟩, some 200010000, none, 0⟩ =
      ascii "!STOP EP=3 STATE=STOPPED HOLDERS=LA,S03,P FIRST=LINE_A REASON=0 POS=52:3 TIME=200010000 MARK=NONE CHASE=0" ∧
    Notice.spell (.patch (.late 410 305) ⟨1, 0⟩ ⟨true, some 305, none, .queued, some 305, some 1, false, false, none⟩
      .active 41950000) =
      ascii "!PATCH LATE SLOT=2A DESIRED=305 CONFIRMED=NONE REQ=305 STATE=QUEUED ATTEMPT=1 STN=ACTIVE CUE=41 CUEPATCH=305 T=41950000" ∧
    talk Dev.reset ["#85 NOTE.PUT 9 TEXT=\"SAY \\22GO\\22\""] = [ascii "#85 OK 9 LEN=8"] := by decide +kernel

/-- Spec 11: the worked check word and the worked reply block. -/
theorem test_check_words :
    checked (patchBytes ⟨2, 0⟩ 410) = [0x02#8, 0x03#8, 0x00#8, 0x01#8, 0x9A#8, 0xFF#8, 0x60#8] ∧
    readBlock [0x03#8, 0x02#8, 0x00#8, 0x01#8, 0x9A#8, 0x00#8, 0xFF#8, 0x60#8] = .report 2 (.applied 0 410 .ok) ∧
    readBlock (List.replicate 8 0xFF#8) = .bad := by decide +kernel

/-- Spec 10, the example of the output arbiter: STOP while a CUE notice is on the line. -/
theorem test_output_order :
    let n (k : Nat) : Notice := .cue k .atCue .beat none 1 0
    let d0 : Dev := { running (runAt ⟨2, 1⟩ 1) with port := { Port.start with
      sending := some (.notice (n 610)), low := [n 620], recordChanged := false, record := (armed .running).ctl.record } }
    let d1 := ran (.panic 2) (ran (.stop 80 (some 3)) d0)
    let lines (d : Dev) : List Bool := match d.port.sending with
      | some (.reply _) => [true, false, false]
      | some (.record _) => [false, true, false]
      | some (.notice _) => [false, false, true]
      | none => []
    let e1 := ran .outputLineEnd d1
    let e2 := ran .outputLineEnd e1
    let e3 := ran .outputLineEnd e2
    let e4 := ran .outputLineEnd e3
    d1.port.reply = some ⟨80, .ok [⟨"", [.word "STOPPED"]⟩, ⟨"", [.num 1]⟩]⟩ ∧ lines e1 = [true, false, false] ∧
    lines e2 = [false, true, false] ∧ e2.port.record.holders = [.port, .station 2] ∧
    lines e3 = [false, false, true] ∧ e4.port.sending = some (.notice (n 620)) ∧ e4.port.high = [] ∧ e4.port.low = [] := by
  decide +kernel

/-- No row of the table has bits, so no word spells a command and `withFetchWord` changes nothing. -/
theorem test_no_command_words : decodeTableWord 8 1 = none ∧ (on dark).withFetchWord 8 1 = on dark := by
  decide +kernel

/-! ## A state and operands that meet each statement's hypotheses -/

/-- A part whose pit line is busy and where nothing is due. -/
def quiet (t : Time) : Dev := (busy .poll dark).setClock t
def withPort (f : Port → Port) (d : Dev) : Dev := d.setPort (f d.port)
def saving (d : Dev) : Dev := { d with store := ⟨some 0, .invalid, none, data⟩ }
/-- A store whose image is the small show, with the sum of its bytes. -/
def imaged (sum : BitVec 16) (d : Dev) : Dev := { d with store := ⟨none, testSum (some sum), some sum, data⟩ }
/-- One received line in the buffer. -/
def lineIn (b : Text) (dropped whole : Nat) : Dev := withPort (fun p => { p with lines := [⟨b, dropped, whole, 0⟩] }) dark
/-- A form of `n` bars, each its own entry. -/
def bars (n : Nat) : List FormEntry := (List.range n).map fun k => ⟨k + 1, 1, 4, none, .keep, 0, .follow, none, [], false⟩
def withForm (f : List FormEntry) (d : Dev) : Dev := d.setData { d.data with form := f }
def withMarks (ms : List Mark) (d : Dev) : Dev := d.setData { d.data with marks := ms }

theorem test_meets_StepRunsTheFrontCommand : (⟨dark, [.pollDue]⟩ : State).pending = .pollDue :: [] := rfl

theorem test_meets_EmptyQueueFollowsTheSchedule :
    (on dark).pending = [] ∧ dark.nextEvent = some .pollDue ∧
    (quiet 281474976710654).nextEvent = none ∧ (quiet 281474976710654).clock + 1 < 281474976710656 ∧
    (quiet 281474976710655).nextEvent = none ∧ 281474976710656 ≤ (quiet 281474976710655).clock + 1 := by
  decide +kernel

/-- The part's own events in their order: a hand-over, the request in hand, a beat, a poll, the clock. -/
theorem test_own_events_in_order :
    let beat : Dev := { quiet 2000000 with eng := runAt ⟨1, 1⟩ 1 }
    let asked := withPort (fun p => { p with inHand := some (.stop 1 none) }) beat
    (asked.hand [.actEnd]).nextEvent = some .actEnd ∧ asked.nextEvent = some (.stop 1 none) ∧
    beat.nextEvent = some .beatDue ∧ dark.nextEvent = some .pollDue := by decide +kernel

/-- Each of the four sources of the arbiter, first present; none; and a busy line. -/
theorem test_meets_OutputArbiterTakesTheFirstPresent :
    let p (reply : Option Reply) (changed : Bool) (high low : List Notice) : Port :=
      { Port.start with reply := reply, recordChanged := changed, high := high, low := low }
    let n : Notice := .store .saved .valid 0
    (p (some ⟨1, .no .busy⟩) true [n] [n]).sending = none ∧ (p none true [n] [n]).recordChanged = true ∧
    (p none false [n] [n]).high = n :: [] ∧ (p none false [] [n]).low = n :: [] ∧ (p none false [] []).low = [] ∧
    { Port.start with sending := some (.notice n) }.sending = some (.notice n) ∧
    dark.ctl.record = dark.port.record ∧ (armed .ready).ctl.record ≠ (armed .ready).port.record := by
  decide +kernel

theorem test_meets_LineBytesAndLineEnds :
    let used (p : Port) := (p.lines.map fun l => l.bytes.length + 1).sum + p.arriving.length
    used { Port.start with lines := [⟨List.replicate 200 65, 0, 0, 0⟩], arriving := List.replicate 311 65 } = 512 ∧
    used { Port.start with lines := [⟨List.replicate 200 65, 0, 0, 0⟩], arriving := List.replicate 310 65 } = 511 ∧
    (let p := { Port.start with sending := some (.reply ⟨1, .no .busy⟩), reply := some ⟨1, .no .busy⟩ }
     p.sending = some (.reply ⟨1, .no .busy⟩) ∧ p.reply = some ⟨1, .no .busy⟩) ∧
    (∀ r, Port.start.sending = some (.reply r) → Port.start.reply ≠ some r) ∧
    (let p := { Port.start with arriving := ascii "A" ++ [13#8] }
     p.lastLost = false ∧ p.arriving.getLast? = some 13#8 ∧ { p with lastLost := true }.lastLost ≠ false) := by
  refine ⟨by decide +kernel, by decide +kernel, ⟨rfl, rfl⟩, fun r h => (by cases h), by decide +kernel⟩

/-- A CR is dropped only when the LF comes immediately behind it, no lost byte between them (R168). -/
theorem test_line_end :
    let p : Port := { Port.start with arriving := ascii "A" ++ [13#8] }
    let ends (p : Port) : List (Text × Nat) := (p.receive 0 10#8).lines.map fun l => (l.bytes, l.dropped)
    ends p = [(ascii "A", 0)] ∧ ends { p with lost := 1, lostAt := 1 } = [(ascii "A", 1)] ∧
    ends { p with lost := 1, lostAt := 2, lastLost := true } = [(ascii "A" ++ [13#8], 1)] := by decide +kernel

theorem test_meets_RequestLineIsJudgedAndRead :
    (dark.port.lines = []) ∧ (withPort (fun p => { p with reply := some ⟨1, .no .busy⟩ }) dark).port.reply.isSome ∧
    (let l : RxLine := ⟨ascii "#7 " ++ List.replicate 198 65, 0, 0, 0⟩
     (lineIn l.bytes 0 0).port.lines = l :: [] ∧ (lineIn l.bytes 0 0).port.reply = none ∧
       (lineIn l.bytes 0 0).port.inHand = none ∧ 200 < l.bytes.length + l.dropped) ∧
    readTag (ascii "7 STOP") = none ∧ readTag ((ascii "#7 STOP").take 2) = none ∧
    readTag ((ascii "#7 STOP").take 3) = some (7, []) ∧
    (let b := ascii "#7 " ++ List.replicate 197 65
     b.length + 0 ≤ 200 ∧ readTag b = some (7, List.replicate 197 65) ∧ b.length = 200) ∧
    (readRequest 7 0 (ascii "NOPE") matches .error .unknown) ∧ (readRequest 7 0 (ascii "ARM") matches .error .syntaxErr) ∧
    (readRequest 7 0 (ascii "STOP 256") matches .error .range) ∧
    (readRequest 7 0 (ascii "stop 255") matches .ok (.stop 7 (some 255))) ∧
    (readRequest 7 5 (ascii "TAP") matches .ok (.tap 7 5)) := by decide +kernel

/-- Mnemonics known and not; each kind of line refused SYNTAX; digits at both ends of the range (R169, R183). -/
theorem test_meets_RequestLineIsJudgedAndRead_reading :
    let mn (l : String) : Text := ((ascii l).takeWhile (· != 32#8)).map upper
    ((∃ x ∈ requests, ascii x.1 = mn "stop 1") ∧ ¬ ∃ x ∈ requests, ascii x.1 = mn "STOPS 1") ∧
    (∃ b ∈ ascii "STOP" ++ [32#8, 127#8], b.toNat < 32 ∨ 126 < b.toNat) ∧
    (ascii "NOTE.PUT 9 TEXT=\"A").count 34#8 % 2 = 1 ∧
    (34#8 ∉ ascii "STOP" ∧ ascii "STOP  1" = ascii "STOP" ++ 32#8 :: 32#8 :: ascii "1" ∧
      ascii "STOP " = ascii "STOP" ++ [32#8]) ∧
    (ascii "0009999" ≠ [] ∧ ∀ b ∈ ascii "0009999", 48 ≤ b.toNat ∧ b.toNat ≤ 57) ∧
    (readRequest 7 0 (ascii "FORM.GET 0009999") matches .ok (.formGet 7 (.bar 9999))) ∧
    (readRequest 7 0 (ascii "FORM.GET 10000") matches .error .range) ∧
    readTag (ascii "#0255 X") = some (255, ascii "X") ∧ readTag (ascii "#256 X") = none := by decide +kernel

/-- A damaged line: its tag is read from what came before the first dropped byte (R168). -/
theorem test_damaged_lines :
    (lineIn (ascii "#7 STOP") 4 3).port.takeLine.reply = some ⟨7, .no .syntaxErr⟩ ∧
    (lineIn (ascii "#7 STOP") 4 2).port.takeLine.reply = none ∧
    (lineIn (ascii "#7 STOP") 4 2).port.takeLine.discarded = 1 ∧
    (lineIn (ascii "#7 STOP") 0 0).port.takeLine.inHand = some (.stop 7 none) := by decide +kernel

theorem test_meets_EveryRequestIsAnsweredUnderItsTag :
    (Instr.stop 9 (some 256)).tag? = some 9 ∧ (Instr.stop 9 (some 256)).rangeOk = false ∧
    (withPort (fun p => { p with inHand := some (.stop 9 none) }) dark).port.inHand = some (.stop 9 none) := by decide

theorem test_meets_SaveInProgressRefusesChanges :
    (saving dark).store.writing = true ∧ (Instr.notePut 9 0 []).tag? = some 9 ∧ (Instr.notePut 9 0 []).rangeOk = true ∧
    (Instr.reset 9).rangeOk = true ∧
    (Instr.formPut 9 goodForm).rangeOk = true ∧ (entryOf goodForm).agrees = true ∧ (saving dark).ctl.state = .dark ∧
    (Instr.markDel 9 (ascii "A")).rangeOk = true ∧
    (∀ q : Fin 4, q ≠ 0 → (saving dark).data.rooms[q].out ≠ some 2) ∧
    (Instr.roomSet 9 0 ⟨none, none, some (.out 2), none⟩).rangeOk = true ∧
    (Instr.laneSet 9 0 ⟨none, some 2, none, none, none⟩).rangeOk = true ∧
    (Instr.videoSet 9 ⟨some .hz5994, none⟩).rangeOk = true ∧
    (Instr.outSet 9 0 ⟨none, some 8, none⟩).rangeOk = true ∧
    (∀ r : Fin 4, (saving dark).data.rooms[r].out ≠ some 0) ∧ (Instr.showSave 9).rangeOk = true ∧
    (Instr.showLoad 9).rangeOk = true := by decide +kernel

theorem test_meets_RaisedNoticesAndBeatNotices :
    let n : Notice := .store .saved .valid 0
    let v : Notice := .vamp (.leave 1)
    (Notice.beat ⟨0, ⟨1, 1⟩, .downbeat, 500000, 1, 0, false, none⟩).cls ∈ dark.port.mask ∧
    n.cls ∉ dark.port.mask ∧ n.cls ∈ [.showCtl, .focus, .patch, .station, .align, .video, .store] ∧
    (List.replicate 31 n).length < 32 ∧ 32 ≤ (List.replicate 32 n).length ∧
    v.cls ∉ dark.port.mask ∧ v.cls ∈ [.cue, .beat, .bar, .vamp, .edit, .tap] ∧
    (List.replicate 63 v).length < 64 ∧ 64 ≤ (List.replicate 64 v).length := by decide +kernel

/-- An entry replaced; and the last place of the table taken, by the 256th entry. -/
theorem test_meets_FormPutWritesOneEntry :
    (formOk dark.data.form ∧ (Instr.formPut 1 { goodForm with count := 3 }).rangeOk = true ∧
      (entryOf { goodForm with count := 3 }).agrees = true ∧ dark.store.writing = false ∧ dark.ctl.state = .dark ∧
      (inShow .stopped dark).ctl.state = .stopped ∧
      (∀ e ∈ dark.data.form, e.first ≠ 1 → e.last < 1 ∨ 1 + 3 - 1 < e.first) ∧ ∃ e ∈ dark.data.form, e.first = 1) ∧
    (formOk (bars 255) ∧ (∀ e ∈ bars 255, e.first ≠ 256 → e.last < 256 ∨ 256 + 1 - 1 < e.first) ∧
      (entryOf { goodForm with first := 256, count := 1 }).agrees = true ∧ (bars 255).length < 256) := by
  refine ⟨by unfold formOk FormEntry.ok; decide +kernel, ⟨by decide +kernel, ?_, ?_⟩, by decide +kernel⟩
  · rw [bars, List.pairwise_map]
    refine List.Pairwise.imp ?_ List.pairwise_lt_range
    intro a b h
    show a + 1 + 1 - 1 < b + 1
    omega
  · unfold FormEntry.ok; decide +kernel

/-- Every refusal: fields that disagree; an armed show; overlap by one bar on either side; a full table; no such row. -/
theorem test_meets_FormAndMarkEditsAreRefused :
    (let f := { goodForm with band := some 6 }
     f.ok = true ∧ (entryOf f).agrees = false) ∧
    (goodForm.ok = true ∧ (entryOf goodForm).agrees = true ∧ (armed .ready).ctl.state = .ready) ∧
    (⟨ascii "A", ⟨1, 1⟩, none, none⟩ : MarkFields).ok = true ∧ nameOk 8 (ascii "A") = true ∧
    (let f := { goodForm with first := 4, count := 1 }
     f.ok = true ∧ (entryOf f).agrees = true ∧ dark.store.writing = false ∧ dark.ctl.state = .dark ∧
       ∃ e ∈ dark.data.form, e.first ≠ f.first ∧ f.first ≤ e.last ∧ e.first ≤ f.first + f.count - 1) ∧
    (let f := { goodForm with first := 257, count := 1 }
     f.ok = true ∧ (entryOf f).agrees = true ∧ (∀ e ∈ bars 256, e.last < f.first ∨ f.first + f.count - 1 < e.first) ∧
       (∀ e ∈ bars 256, e.first ≠ f.first) ∧ 256 ≤ (bars 256).length) ∧
    (∀ e ∈ dark.data.form, e.first ≠ 2) ∧
    (let ms := (List.range 128).map fun k => (⟨[BitVec.ofNat 8 (65 + k % 16), BitVec.ofNat 8 (65 + k / 16)], ⟨1, 1⟩, 1, none⟩ : Mark)
     (∀ m ∈ ms, m.name ≠ ascii "A") ∧ 128 ≤ ms.length) ∧
    (∀ m ∈ dark.data.marks, m.name ≠ ascii "A") := by decide +kernel

/-- An edit in STOPPED withdraws the counts not yet taken and keeps the other hand-overs. -/
theorem test_edit_withdraws_counts :
    let d := { inShow .stopped dark with handovers := [.slotStop, .chasePendingCount 1, .cueStop] }
    (ran (.markDel 1 (ascii "ACT1")) d).handovers = [.slotStop, .cueStop] := by decide +kernel

theorem test_meets_FormDelAndMarkEditsAreTaken :
    dark.store.writing = false ∧ dark.ctl.state = .dark ∧ (inShow .stopped dark).ctl.state = .stopped ∧
    (∃ e ∈ dark.data.form, e.first = 7) ∧
    ((⟨ascii "ACT1", ⟨9, 1⟩, none, none⟩ : MarkFields).ok = true ∧ ∃ m ∈ dark.data.marks, m.name = ascii "ACT1") ∧
    ((⟨ascii "B", ⟨9, 1⟩, none, none⟩ : MarkFields).ok = true ∧ (List.replicate 127 mark).length < 128) ∧
    nameOk 8 (ascii "ACT1") = true := by decide +kernel

theorem test_meets_ReadingsChangeNothing :
    entryOfBar dark.data.form 4 = some (1, e1) ∧ entryOfBar dark.data.form 5 = some (2, e2) ∧
    (entryAt dark.data.form 1 = some e1 ∧ e1.first ≤ 1 ∧ 4 ≤ e1.last ∧ entryAt dark.data.form 2 = some e2 ∧
      e2.first ≤ 5 ∧ 5 ≤ e2.last) ∧
    (∀ e ∈ dark.data.form, ¬ (e.first ≤ 8 ∧ 8 ≤ e.last)) ∧ (∀ e ∈ dark.data.form, e.first ≤ 7) ∧
    ¬ (∀ e ∈ dark.data.form, e.first ≤ 6) ∧ (MarkQuery.named (ascii "ACT1")).ok = true ∧
    (entryAt dark.data.form 3 = some e3 ∧ 6 < e3.first ∧ ∀ x ∈ dark.data.form, 6 < x.first → e3.first ≤ x.first) ∧
    (let m2 : Mark := ⟨ascii "ACT2", ⟨2, 1⟩, 0, none⟩
     (([mark, m2] : List Mark).map Mark.name).Nodup ∧ [mark, m2] = [] ++ mark :: [m2] ∧
       [mark, m2] = [mark] ++ m2 :: [] ∧ ∀ m ∈ [mark, m2], m.name ≠ ascii "B") ∧
    (∃ m ∈ dark.data.marks, m.name = ascii "ACT1") ∧ Dev.reset.data.marks = [] ∧ (CueQuery.num 10).ok = true ∧
    (∃ c ∈ dark.data.cues, c.num = 10) ∧ (∀ c ∈ dark.data.cues, c.num ≠ 11) ∧
    (dark.data.cues = [cueA] ++ cueB :: [cueC] ∧ dark.data.cues = [cueA, cueB] ++ cueC :: [] ∧
      (dark.data.cues.map Cue.num).Nodup) ∧
    (CueQuery.after 25).ok = true ∧ (CueQuery.after 11).ok = true ∧ CueQuery.first.ok = true ∧
    (held .tap1 .lapsed dark).arb.focus = some ⟨.tap1, .lapsed⟩ ∧ dark.arb.focus = none := by decide +kernel

theorem test_meets_PeriodLimitsFollowTheBand :
    let e (n b : Nat) : FormEntry := { e1 with nominal := some n, band := b }
    (e 200000 1).nominal = some 200000 ∧ 1 ≤ (e 200000 1).band ∧ (e 200000 1).limits = (200000, 203125) ∧
    (e 2000000 32).band ≤ 32 ∧ (e 2000000 32).limits = (1000000, 2000000) ∧ (e 300000 0).band = 0 ∧
    (e 300000 0).limits = (200000, 2000000) ∧ e2.nominal = none := by decide +kernel

theorem test_meets_LeadWalkStaysInTheForm :
    covered form = true ∧ (∀ e ∈ form, 1 ≤ e.count ∧ 1 ≤ e.meter) ∧ inForm form ⟨7, 4⟩ = true ∧
    inForm form ⟨1, 1⟩ = true ∧ inForm form ⟨5, 1⟩ = true ∧ prevBeat form ⟨1, 1, 5⟩ = none ∧
    prevBeat form ⟨7, 4, 5⟩ = some ⟨7, 3, 5⟩ ∧ prevBeat form ⟨5, 1, 5⟩ = some ⟨4, 4, 5⟩ := by decide +kernel

theorem test_meets_EngineAndSourceSettings :
    dark.store.writing = false ∧ (⟨some 4, some 16, none, some 1, some 4⟩ : EngineFields).ok = true ∧
    (let f : SrcFields := ⟨some 5, some .both, some 250, some .none, some (ascii "PODIUM")⟩
     f.ok .tap1 = true ∧ f.rank = some (dark.data.srcs.get .port).rank) ∧
    (⟨some 1, none, none, some (.cam .cam2), none⟩ : SrcFields).ok .port = true ∧
    (held .tap1 .active dark).arb.holder = some .tap1 ∧
    ∀ y z, y ≠ z → (dark.data.srcs.get y).rank ≠ (dark.data.srcs.get z).rank := by
  refine ⟨by decide +kernel, by decide, by decide +kernel, by decide, by decide +kernel, fun y z h => ?_⟩
  cases y <;> cases z <;> first | exact absurd rfl h | decide +kernel

/-- The next beat of the same entry; into a KEEP entry; into a NOMINAL one out of a vamp; and a hold point. -/
theorem test_meets_BeatOfTheScoreIsEmittedWhenDue :
    let at_ (g : Engine) (p : Pos) (j : Nat) (e : FormEntry) : Bool :=
      let d := (running g).setClock 2000000
      g.st == .run && g.due == some 2000000 && d.eng == g && coming d.data.form g == some (.beat p j) &&
        entryAt d.data.form j == some e
    at_ (runAt ⟨1, 1⟩ 1) ⟨1, 2⟩ 1 e1 ∧ at_ (runAt ⟨4, 4⟩ 1) ⟨5, 1⟩ 2 e2 ∧
    at_ { runAt ⟨6, 3⟩ 2 with pass := 3, rel := .armed } ⟨7, 1⟩ 3 e3 ∧ at_ (runAt ⟨7, 2⟩ 3) ⟨7, 3⟩ 3 e3 ∧
    e2.policy = .keep ∧ e3.policy = .nominal ∧ e3.nominal = some 600000 ∧ (⟨7, 3⟩ : Pos) ∈ e3.holds := by decide +kernel

/-- A bar's next beat, the next bar of the entry, the loop, the end flag, the bar behind a vamp, the end of the form. -/
theorem test_meets_BeatOfTheScoreIsEmittedWhenDue_next :
    let final (q : Pos) (i : Nat) (f : FormEntry) : Bool :=
      entryAt form i == some f && decide (f.first ≤ q.bar ∧ q.bar = f.last ∧ q.beat = f.meter)
    formOk form ∧ entryAt form 1 = some e1 ∧ (runAt ⟨1, 3⟩ 1).pos = some ⟨1, 3⟩ ∧ 3 < e1.meter ∧ 1 < e1.last ∧
    final ⟨4, 4⟩ 1 e1 = true ∧ e1.vamp = none ∧ e1.actEnd = false ∧ e2.first ≤ 4 + 1 ∧ 4 + 1 ≤ e2.last ∧
    final ⟨6, 3⟩ 2 e2 = true ∧ e2.vamp.isSome = true ∧ { runAt ⟨6, 3⟩ 2 with rel := .armed }.rel = .armed ∧
    final ⟨7, 4⟩ 3 e3 = true ∧ e3.actEnd = true ∧ (∀ e ∈ form, ¬ (e.first ≤ 7 + 1 ∧ 7 + 1 ≤ e.last)) := by
  refine ⟨by unfold formOk FormEntry.ok; decide +kernel, ?_⟩
  decide +kernel

/-- An engine in its count-in, with some count beats left. -/
def counting (left : Nat) : Engine :=
  { runAt ⟨1, 1⟩ 1 with st := .count, counter := left, prepared := some ⟨⟨1, 1⟩, 1, 1, 4, 500000⟩ }

theorem test_meets_CountBeatsMarkBeatLoopAndActEnd :
    (dark.eng.st = .idle ∧ hold0.eng.st = .hold .point ∧ (running (runAt ⟨1, 1⟩ 1)).eng.due = some 2000000 ∧
      (running (runAt ⟨1, 1⟩ 1)).clock < 2000000) ∧
    ((counting 4).counter ≤ 1 * 4 ∧ 0 < (counting 1).counter ∧ (counting 0).counter = 0 ∧
      entryAt form 1 = some e1 ∧ (counting 4).prepared = some ⟨⟨1, 1⟩, 1, 1, 4, 500000⟩) ∧
    (let g := { runAt ⟨6, 3⟩ 2 with rel := .deferred, pass := 1 }
     g.st = .run ∧ g.entry = some 2 ∧ entryAt form 2 = some e2 ∧ g.pos = some ⟨6, 3⟩ ∧ 6 = e2.last ∧ 3 = e2.meter ∧
       e2.vamp.isSome = true ∧ g.rel ≠ .armed) ∧
    coming form (runAt ⟨7, 4⟩ 3) = some .actEnd := by decide +kernel

/-- A match at the last microsecond of the window, and one at L; in a run and in a count-in. -/
theorem test_meets_MatchMovesTempoAndPhase :
    let g := { runAt ⟨2, 1⟩ 1 with matchedPrev := true, tm := some 1020000 }
    g.st = .run ∧ (counting 2).st = .count ∧ g.last = some 1500000 ∧ g.entry = some 1 ∧ entryAt form 1 = some e1 ∧
    e1.mode = .follow ∧ g.matchedL = false ∧ 1625000 - 1500000 ≤ g.window ∧ 1500000 - 1500000 ≤ g.window ∧
    ¬ 1625001 - 1500000 ≤ g.window ∧
    (g.due = some 2000000 ∧ comingBeat form g = some (e1, ⟨2, 2⟩) ∧ 2000000 - 1875000 ≤ g.period * 16 / 64 ∧
      ¬ 2000000 - 1874999 ≤ g.period * 16 / 64 ∧ comingBeat form (counting 0) = some (e1, ⟨1, 1⟩)) ∧
    (comingBeat form (runAt ⟨4, 4⟩ 1) = some (e2, ⟨5, 1⟩) ∧ e2.mode = .lead) ∧
    (runAt ⟨5, 2⟩ 2).entry = some 2 ∧ entryAt form 2 = some e2 ∧ comingBeat form (runAt ⟨7, 4⟩ 3) = none ∧
    dark.eng.st = .idle ∧ 1499999 < 1500000 := by decide +kernel

/-- Early taps: a beat of the entry, one into the next entry, the loop of a FOLLOW vamp, a count beat, the mark's beat. -/
theorem test_meets_MatchMovesTempoAndPhase_early :
    let vamp : FormEntry := { e2 with mode := .follow }
    let f : List FormEntry := [e1, vamp, e3]
    let at_ (g : Engine) (c : Coming) (x : FormEntry) (q : Pos) : Bool :=
      g.due == some 2000000 && coming f g == some c && comingBeat f g == some (x, q) && x.mode == .follow &&
        decide (2000000 - 1900000 ≤ g.period * 16 / 64) && !decide (1900000 - 1500000 ≤ g.window)
    at_ (runAt ⟨2, 1⟩ 1) (.beat ⟨2, 2⟩ 1) e1 ⟨2, 2⟩ ∧ at_ (runAt ⟨4, 4⟩ 1) (.beat ⟨5, 1⟩ 2) vamp ⟨5, 1⟩ ∧
    at_ { runAt ⟨6, 3⟩ 2 with pass := 1, rel := .deferred } (.loop ⟨5, 1⟩) vamp ⟨5, 1⟩ ∧
    at_ { runAt ⟨6, 3⟩ 2 with pass := 2, rel := .armed } (.beat ⟨7, 1⟩ 3) e3 ⟨7, 1⟩ ∧
    at_ (counting 1) (.count 4) e1 ⟨1, 1⟩ ∧ at_ (counting 0) .mark e1 ⟨1, 1⟩ ∧
    vamp.policy = .keep ∧ e3.policy = .nominal := by decide +kernel

/-- The engine's reports in a run: late, early, between the windows, in a LEAD entry, and in IDLE. -/
theorem test_tap_reports :
    let d := running (runAt ⟨2, 1⟩ 1)
    (d.engineTap 1625000).2 = .matched ⟨2, 1⟩ ∧ (d.engineTap 1625001).2 = .stray ∧ (d.engineTap 1874999).2 = .stray ∧
    (d.engineTap 1875000).2 = .matched ⟨2, 2⟩ ∧ (d.engineTap 1875000).1.eng.due = some 2375000 ∧
    (d.engineTap 7).2 = .matched ⟨2, 1⟩ ∧ ((running (runAt ⟨5, 2⟩ 2)).engineTap 1500000).2 = .unclassified ∧
    (dark.engineTap 5).2 = .discarded := by decide +kernel

/-- A tap line at the end of its debounce time, and one microsecond before. -/
theorem test_meets_TapsPassTheFrontEnd :
    let d := dark.setArb { dark.arb with srcs := { dark.arb.srcs with tap1 := { SrcRun.start with lastTap := some 100 } } }
    Src.ofLine 0 = .tap1 ∧ (d.data.srcs.get .tap1).edge = some .fall ∧ (d.data.srcs.get .tap4).edge = some .off ∧
    (d.arb.srcs.get .tap1).lastTap = some 100 ∧ (dark.arb.srcs.get .tap1).lastTap = none ∧
    (let e := d.setClock 60100
     ∀ u, (e.arb.srcs.get .tap1).lastTap = some u → u + (e.data.srcs.get .tap1).debounce * 1000 ≤ e.clock) ∧
    ¬ 100 + (d.data.srcs.get .tap1).debounce * 1000 ≤ (d.setClock 60099).clock := by
  refine ⟨rfl, by decide +kernel, by decide +kernel, rfl, rfl, fun u h => ?_, by decide +kernel⟩
  obtain rfl : 100 = u := Option.some.inj h
  decide +kernel

/-- A running engine in bar 2, bar 1 its LEAD vamp, and no holder. -/
def follows : Dev := running (runAt ⟨2, 1⟩ 1)
def leads : Dev := running (runAt ⟨5, 2⟩ 2)

theorem test_meets_TapRequestAndFirstTap :
    281474976710655 < 281474976710656 ∧ dark.arb.srcs.port.lastTap = none ∧ follows.arb.focus = none ∧
    (∀ k, follows.eng.st ≠ .hold k) ∧ follows.openWindow 1625000 = some ⟨5, ⟨2, 1⟩⟩ ∧
    follows.openWindow 1625001 = none ∧ follows.openWindow 1875000 = some ⟨6, ⟨2, 2⟩⟩ ∧
    leads.arb.focus = none ∧ leads.openWindow 1600000 = none ∧ leads.followNow = false ∧ dark.eng.st = .idle ∧
    dark.openWindow 0 = none ∧ follows.eng.st = .run ∧ follows.followNow = true ∧ leads.eng.st = .run ∧
    (let d := hold0.setArb { Arbiter.start with pin := true }
     d.arb.focus = none ∧ d.openWindow 60150001 = none ∧ d.eng.st = .hold .point ∧ d.arb.pin = true) := by
  refine ⟨by decide, rfl, rfl, fun k h => (by cases h), ?_⟩
  decide +kernel

/-- Both windows at their last microsecond and one past it, in a run; the early window of a count beat; and no beat to
come (R50). -/
theorem test_open_windows :
    let counts : Dev := running (counting 1)
    let last : Dev := running (runAt ⟨7, 4⟩ 3)
    follows.eng.last = some 1500000 ∧ 1625000 - 1500000 ≤ follows.eng.window ∧ ¬ 1625001 - 1500000 ≤ follows.eng.window ∧
    follows.openWindow 0 = some ⟨5, ⟨2, 1⟩⟩ ∧ follows.openWindow 1874999 = none ∧
    follows.openWindow 2000000 = some ⟨6, ⟨2, 2⟩⟩ ∧ follows.openWindow 2000001 = none ∧
    coming form follows.eng = some (.beat ⟨2, 2⟩ 1) ∧ counts.openWindow 2000000 = some ⟨6, ⟨1, 1⟩⟩ ∧
    coming form last.eng = some .actEnd ∧ last.openWindow 2000000 = none ∧
    hold0.openWindow 60150000 ≠ none := by decide +kernel

/-- A tap without a holder outside every window of a FOLLOW entry is a stray (R57). -/
theorem test_stray_without_holder :
    let d := follows.routeTap .tap2 1625001
    d.arb.srcs.tap2.strays = 1 ∧ d.arb.focus = none ∧ d.eng = follows.eng := by decide +kernel

/-- A vamp's bars at the edge of its warn bars, from a run and from a count-in; a release that stands; no vamp. -/
theorem test_meets_VampReleaseFromPortAndStation :
    (let g := leads.eng
     g.st = .run ∧ g.entry = some 2 ∧ entryAt leads.data.form 2 = some e2 ∧ e2.vamp = some 1 ∧ g.pos = some ⟨5, 2⟩ ∧
       g.rel = .none ∧ ¬ e2.last - 5 + 1 ≤ 1 ∧ e2.last - 6 + 1 ≤ 1) ∧
    (let g := { counting 2 with entry := some 2, prepared := some ⟨⟨6, 1⟩, 2, 1, 3, 500000⟩, rel := .deferred }
     g.st = .count ∧ g.entry = some 2 ∧ g.prepared = some ⟨⟨6, 1⟩, 2, 1, 3, 500000⟩ ∧ g.rel ≠ .none) ∧
    (let g := { counting 0 with st := .hold .mark, due := none, prepared := some ⟨⟨6, 1⟩, 2, 0, 3, 500000⟩ }
     g.entry = some 1 ∧ (if g.st = .hold .mark then g.prepared.map Prepared.entry else g.entry) = some 2) ∧
    ∀ e w, ¬ (follows.eng.st ≠ .idle ∧ e.vamp = some w ∧
      ∃ i, (if follows.eng.st = .hold .mark then follows.eng.prepared.map Prepared.entry else follows.eng.entry) = some i ∧
        entryAt follows.data.form i = some e) := by
  refine ⟨by decide +kernel, by decide +kernel, by decide +kernel, ?_⟩
  rintro e w ⟨-, hv, i, hi, he⟩
  obtain rfl : 1 = i := Option.some.inj hi
  obtain rfl : e1 = e := Option.some.inj he
  cases hv

/-- The engine after a GO with no count bars, the first after power-on. -/
def waits : Dev := { armed .countIn with
  eng := { Engine.start with st := .hold .mark, prepared := some ⟨⟨1, 1⟩, 1, 0, 4, 500000⟩ } }
/-- An engine that holds on the act's last beat, outside its window. -/
def ends : Dev := running { runAt ⟨7, 4⟩ 3 with st := .hold .point, due := none }

theorem test_meets_HoldsAreReleasedOrLateMatched :
    hold0.eng.last = some 60000000 ∧ hold0.eng.st = .hold .point ∧ hold0.followNow = true ∧
    60150000 - 60000000 ≤ hold0.eng.window ∧ ¬ 60150001 - 60000000 ≤ hold0.eng.window ∧ hold0.eng.matchedL = false ∧
    hold0.entryNow.isSome = true ∧ coming hold0.data.form hold0.eng = some (.beat ⟨25, 1⟩ 1) ∧
    (entryAt hold0.data.form 1).isSome = true ∧
    (let g := { counting 0 with st := .hold .mark, due := none }
     g.last = some 1500000 ∧ g.st = .hold .mark ∧ g.prepared = some ⟨⟨1, 1⟩, 1, 1, 4, 500000⟩ ∧ entryAt form 1 = some e1) ∧
    (waits.eng.last = none ∧ waits.eng.st = .hold .mark ∧ waits.eng.prepared = some ⟨⟨1, 1⟩, 1, 0, 4, 500000⟩ ∧
      entryAt waits.data.form 1 = some e1) ∧
    (ends.eng.st = .hold .point ∧ coming ends.data.form ends.eng = some .actEnd ∧ ends.eng.last = some 1500000) := by
  decide +kernel

/-- The first GO after power-on holds before the mark's beat, and a tap at any time releases it (R42); a release on
the act's last beat ends the act (R38). -/
theorem test_releases :
    let r := waits.engineTap 3
    let x := ends.engineTap 9000000
    r.2 = .matched ⟨1, 1⟩ ∧ r.1.eng.st = .run ∧ r.1.eng.last = some 3 ∧ r.1.eng.due = some 500003 ∧
    r.1.eng.matchedL = true ∧ x.2 = .matched ⟨7, 4⟩ ∧ x.1.eng.st = .idle ∧ x.1.handovers = [.actEnd] := by decide +kernel

/-- TAP2 as a rival of TAP1: a claim that counts, one that stands, one that takes focus, a second tap in one window,
a tap outside every window, and one with the pin set. -/
theorem test_meets_ClaimTapsCountStandAndTakeFocus :
    let rival (r : SrcRun) (st : HolderStatus) : Dev :=
      let d := held .tap1 st follows
      d.setArb { d.arb with srcs := { d.arb.srcs with tap2 := r } }
    let counted (b : BeatRef) : SrcRun := { SrcRun.start with claims := 1, claimBeat := some b, claimTap := some 1000000 }
    let d := rival (counted ⟨4, ⟨1, 4⟩⟩) .lapsed
    (∀ k, d.eng.st ≠ .hold k) ∧ d.arb.focus = some ⟨.tap1, .lapsed⟩ ∧ d.data.engine.c = 2 ∧
    d.openWindow 1600000 = some ⟨5, ⟨2, 1⟩⟩ ∧ d.arb.pin = false ∧ (d.arb.srcs.get .tap2).claims + 1 = 2 ∧
    (rival SrcRun.start .active).arb.focus = some ⟨.tap1, .active⟩ ∧
    ((rival SrcRun.start .active).arb.srcs.get .tap2).claims + 1 < 2 ∧
    ¬ (d.data.srcs.get .tap2).rank < (d.data.srcs.get .tap1).rank ∧
    ((rival (counted ⟨5, ⟨2, 1⟩⟩) .active).arb.srcs.get .tap2).claimBeat = some ⟨5, ⟨2, 1⟩⟩ ∧
    (∀ v, (d.arb.srcs.get .tap2).claimBeat = some v → v.no ≠ 5) ∧
    d.openWindow 1700000 = none ∧ d.eng.st = .run ∧ d.followNow = true ∧
    leads.openWindow 1600000 = none ∧ leads.eng.st ≠ .hold .point ∧ leads.followNow = false ∧
    ((d.arb.srcs.get .tap2).claimTap = some 1000000 ∧ 4 + 1 = d.eng.beatNo) ∧
    ((rival (counted ⟨5, ⟨2, 1⟩⟩) .lapsed).openWindow 1900000 = some ⟨6, ⟨2, 2⟩⟩ ∧ 5 = d.eng.beatNo) := by
  refine ⟨fun k h => (by cases h), by decide +kernel, by decide +kernel, by decide +kernel, by decide +kernel,
    by decide +kernel, by decide +kernel, by decide +kernel, by decide +kernel, by decide +kernel, fun v h => ?_,
    by decide +kernel⟩
  obtain rfl : (⟨4, ⟨1, 4⟩⟩ : BeatRef) = v := Option.some.inj h
  decide

/-- Taps in a hold with no holder and with a LAPSED one, and the four reports of the engine on a holder's tap. -/
theorem test_meets_ReleaseTapsRacesInHoldsAndReports :
    (let d := { hold0 with arb := .start }
     d.eng.st = .hold .point ∧ d.arb.pin = false ∧ d.arb.focus = none) ∧
    (held .tap1 .lapsed hold0).arb.focus = some ⟨.tap1, .lapsed⟩ ∧ Src.tap1 ≠ .tap2 ∧
    (let d := held .tap1 .active follows
     d.arb.focus = some ⟨.tap1, .active⟩ ∧ (d.engineTap 1600000).2 = .matched ⟨2, 1⟩ ∧ (d.engineTap 1700000).2 = .stray) ∧
    ((held .tap1 .lapsed follows).engineTap 1600000).2 = .matched ⟨2, 1⟩ ∧
    ((held .tap1 .active leads).engineTap 1600000).2 = .unclassified ∧
    ((held .tap1 .active dark).engineTap 0).2 = .discarded := by decide +kernel

/-- A close not yet due; one due, missed with one miss to go before the silence limit; and one that was matched. -/
theorem test_meets_WindowCloseCountsMissesAndEndsClaims :
    let d := (held .tap1 .active follows).setClock 1625000
    follows.eng.closes.all (fun c => decide (follows.clock < c.due)) = true ∧
    firstClose d.eng.closes = some ⟨⟨5, ⟨2, 1⟩⟩, 1625000, true, false⟩ ∧ 1625000 ≤ d.clock ∧
    d.arb.focus = some ⟨.tap1, .active⟩ ∧ d.data.engine.s = 4 ∧
    (d.setArb { d.arb with misses := 3 }).data.engine.s ≤ 3 + 1 ∧ ¬ d.data.engine.s ≤ d.arb.misses + 1 ∧
    firstClose [⟨⟨5, ⟨2, 1⟩⟩, 1625000, true, true⟩] = some ⟨⟨5, ⟨2, 1⟩⟩, 1625000, true, true⟩ ∧
    d.eng.closes = [] ++ ⟨⟨5, ⟨2, 1⟩⟩, 1625000, true, false⟩ :: [] ∧ d.arb.srcs.tap2.claimBeat = none := by decide +kernel

/-- Of two closes of one due time behind a later one, the first scheduled is taken. -/
theorem test_first_of_equal_closes :
    let c (no due : Nat) : Close := ⟨⟨no, ⟨2, 1⟩⟩, due, true, false⟩
    let d := ((held .tap1 .active follows).setEng { follows.eng with closes := [c 3 9, c 4 7, c 5 7] }).setClock 8
    d.eng.closes = [c 3 9] ++ c 4 7 :: [c 5 7] ∧ (∀ x ∈ [c 3 9], (c 4 7).due < x.due) ∧
    (∀ x ∈ [c 5 7], (c 4 7).due ≤ x.due) ∧ (c 4 7).due ≤ d.clock ∧
    (ran .windowClose d).eng.closes = [c 3 9, c 5 7] := by decide +kernel

theorem test_meets_PinAndFreeRequests :
    (held .tap1 .active dark).arb.focus.map Focus.src = some .tap1 ∧ dark.arb.focus.map Focus.src ≠ some .tap1 := by
  decide +kernel

/-- Differences at and past each edge: 100 000 one way; 0, one frame, and 8 frames the other. -/
theorem test_meets_AlignmentOfARoom :
    let f := Standard.frame .hz50
    let d := dark.setData { dark.data with rooms := dark.data.rooms.set 0 ⟨160000, 0, some 2, []⟩ }
    dark.data.std = .hz50 ∧ { dark.data with std := .hz5994 }.std = .hz5994 ∧ dark.data.rooms[(1 : Fin 4)].out = none ∧
    d.data.rooms[(0 : Fin 4)].out ≠ none ∧ d.data.rooms[(0 : Fin 4)].vr < d.data.rooms[(0 : Fin 4)].cr ∧
    d.data.rooms[(0 : Fin 4)].cr - d.data.rooms[(0 : Fin 4)].vr ≤ 8 * f ∧ (8 - 1) * f < 160000 - 0 ∧
    align ⟨0, 100000, some 0, []⟩ f = ⟨100000, some 0, 0⟩ ∧ align ⟨0, 100001, some 0, []⟩ f = ⟨100000, some 0, 1⟩ ∧
    align ⟨7, 7, some 0, []⟩ f = ⟨0, some 0, 0⟩ ∧ align ⟨1, 0, some 0, []⟩ f = ⟨19999, some 1, 0⟩ ∧
    align ⟨20001, 0, some 0, []⟩ f = ⟨19999, some 2, 0⟩ ∧ align ⟨160000, 0, some 0, []⟩ f = ⟨0, some 8, 0⟩ ∧
    align ⟨160001, 0, some 0, []⟩ f = ⟨0, some 8, 1⟩ := by decide +kernel

theorem test_meets_RoomSetWritesAlignsAndReleases :
    (Instr.roomSet 1 1 ⟨some 200000, none, some (.out 2), none⟩).rangeOk = true ∧
    dark.data.rooms[(0 : Fin 4)].out = some 2 ∧ (0 : Fin 4) ≠ 1 ∧ dark.store.writing = false ∧
    (∀ q : Fin 4, q ≠ 1 → dark.data.rooms[q].out ≠ some 5) ∧
    (Instr.roomSet 1 0 ⟨none, none, some .none, none⟩).rangeOk = true ∧
    (Instr.roomSet 1 0 ⟨none, none, none, none⟩).rangeOk = true := by decide +kernel

theorem test_meets_LaneSetAndStationSetWriteTheirFields :
    (Instr.laneSet 1 7 ⟨some 3, some 4, some false, some 0, some .muted⟩).rangeOk = true ∧ dark.store.writing = false ∧
    (saving dark).store.writing = true ∧ (Instr.laneSet 1 7 ⟨none, none, none, none, none⟩).rangeOk = true := by
  decide +kernel

/-- A full lane queue, an open lane and a muted one, in RUNNING; and a show that does not play. -/
theorem test_meets_BeatMarkClickPrunesAndQueues :
    let r : LaneRun := { LaneRun.start with queue := List.replicate 16 ⟨5, 5, .sub, 8, ⟨1, 1⟩⟩ }
    (armed .running).ctl.state = .running ∧ (armed .countIn).ctl.state = .countIn ∧ dark.ctl.state = .dark ∧
    r.queueOk ∧ dark.data.lanes[(0 : Fin 8)].mute = .opened ∧ dark.lanes[(0 : Fin 8)].cueMute = .opened ∧
    { LaneRun.start with cueMute := .muted }.cueMute = .muted := by
  unfold LaneRun.queueOk
  decide +kernel

/-- A head click at its due time, and one microsecond before; each show state; a source that is FOCUS. -/
theorem test_meets_LanesAndOutputsTakeTheirHandOvers :
    let k : Click := ⟨1500000, 1500000, .beat, 10, ⟨1, 1⟩⟩
    let d := { follows with lanes := follows.lanes.set 0 { LaneRun.start with queue := [k] } }
    d.lanes[(0 : Fin 8)].queue = k :: [] ∧ k.due ≤ d.clock ∧ ¬ k.due ≤ (d.setClock 1499999).clock ∧
    { dark.data.outs[(0 : Fin 6)] with source := .focus }.source = .focus ∧ dark.data.outs[(0 : Fin 6)].source ≠ .focus := by
  decide +kernel

/-- The part during a run whose cursor stands at 2:1; cue 1 has fired its AT stage. -/
def scheduled : Dev := { follows with sched := { follows.sched with
  runs := (follows.sched.run 10 |> fun r => { r with sendCond := .passed, atCond := .fired }) ::
    (follows.sched.runs.filter fun r => r.num != 10)
  ctx := some ⟨⟨1, 1⟩, some ⟨⟨2, 1⟩, 1500000, 500000⟩⟩ } }

/-- The table full by cues and by actions, and just not; no run; a run, with the cue in the form and outside it. -/
theorem test_meets_CuePutWritesAndMarksACue :
    let f : CueFields := ⟨11, ⟨2, 1, 240⟩, some 1, [.note none]⟩
    let many := (List.range 1024).map fun k => (⟨k + 100, ⟨1, 1, 0⟩, 0, [.note none]⟩ : Cue)
    let long (k : Nat) : List Cue := [⟨50, ⟨1, 1, 0⟩, 0, List.replicate k (.note none)⟩]
    (Instr.cuePut 1 f).rangeOk = true ∧ dark.store.writing = false ∧ (dark.data.cues.map Cue.num).Nodup ∧
    ((∀ y ∈ many, y.num ≠ 11) ∧ 1024 ≤ many.length ∧ (many.map Cue.num).Nodup) ∧
    4096 < poolSize ((long 4096).filter fun y => y.num != 11) + f.actions.length ∧
    ¬ 4096 < poolSize ((long 4095).filter fun y => y.num != 11) + f.actions.length ∧
    ¬ ((∀ y ∈ scheduled.data.cues, y.num ≠ 11) ∧ 1024 ≤ scheduled.data.cues.length) ∧
    dark.sched.ctx = none ∧ scheduled.sched.ctx.isSome = true ∧ inForm form ⟨9, 1⟩ = false ∧
    inForm form f.pos.toPos = true ∧ (scheduled.sched.run 10).atCond = .fired ∧
    (editCond 1500000 ⟨⟨1, 1⟩, some ⟨⟨2, 1⟩, 1500000, 500000⟩⟩ ⟨2, 1, 240⟩ = .pending 1750000) ∧
    (editCond 1750000 ⟨⟨1, 1⟩, some ⟨⟨2, 1⟩, 1500000, 500000⟩⟩ ⟨2, 1, 240⟩ = .passed) := by
  refine ⟨by decide, rfl, by decide +kernel, ⟨by decide +kernel, by decide +kernel, ?_⟩, ?_⟩
  · rw [List.map_map, List.nodup_iff_pairwise_ne, List.pairwise_map]
    exact List.nodup_range.imp fun h => by simpa using h
  · decide +kernel

/-- A cue in the list with a PENDING stage, a FIRED stage and a cue that is not there. -/
theorem test_meets_CueDelAndNotePut :
    (Instr.cueDel 1 10).rangeOk = true ∧ dark.store.writing = false ∧ cueA ∈ scheduled.data.cues ∧ cueA.num = 10 ∧
    (scheduled.data.cues.map Cue.num).Nodup ∧ (∀ c ∈ scheduled.data.cues, c.num ≠ 11) ∧
    (Instr.notePut 1 63 (List.replicate 32 126)).rangeOk = true := by decide +kernel

theorem test_meets_CueFireFiresWhatIsNotFired :
    (Instr.cueFire 1 10).rangeOk = true ∧ (∀ c ∈ scheduled.data.cues, c.num ≠ 11) ∧ cueA ∈ scheduled.data.cues ∧
    cueA.num = 10 ∧ (scheduled.data.cues.map Cue.num).Nodup ∧ (scheduled.sched.run 10).sendCond ≠ .fired := by
  decide +kernel

/-- A run with cue 2.5's AT stage met at its beat, its tick to come; cue 1's stage met on the beat; one PENDING. -/
theorem test_meets_BeatMarksAndTicksFireStages :
    let d := scheduled
    let e := d.setSched (d.sched.put ⟨25, some ⟨2, 2, 240⟩, some .placed, .unspent, .pending 1500000⟩)
    let m : BeatMark := ⟨2000000, ⟨2, 2⟩, .beat, 500000, 1, 0, false, none⟩
    (d.data.cues.map Cue.num).Nodup ∧ d.schedOk ∧ e.schedOk ∧ m.count = none ∧ d.ctl.state = .running ∧
    { m with count := some 1 }.count ≠ none ∧ dark.ctl.state ≠ .countIn ∧ dark.ctl.state ≠ .running ∧
    cueB ∈ d.data.cues ∧ stagePoint cueB (d.sched.run 25) .atCue = some ⟨2, 2, 240⟩ ∧
    (d.sched.run 25).atCond = .unspent ∧ (d.sched.run 25).placement = some .placed ∧
    (⟨2, 2, 240⟩ : TPos).toPos = m.pos ∧ d.clock < m.time + 240 * m.period / 480 ∧
    (e.sched.run 25).cond .atCue = .pending 1500000 ∧ 1500000 ≤ e.clock := by
  refine ⟨by decide +kernel, schedOk_of_runs _ (by decide +kernel), schedOk_of_runs _ (by decide +kernel), ?_⟩
  decide +kernel

/-- Station 2 joined, its slot A in each request state. -/
def loaded (req : Req) : Dev :=
  let d := joined (slotIn req (some 410)) (armed .ready)
  if req = .queued then d.setLink { d.link with queue := [⟨slotA, 410⟩] } else d

/-- Slot A in flight: a PATCH frame for it is on the line. -/
def flying : Dev := busy (.patch slotA 410) (joined { slotIn .queued (some 410) with inFlight := true } (armed .ready))

theorem loaded_slotsOk (req : Req) : (loaded req).slotsOk := by
  refine slotsOk_of_rows _ ?_ ?_ <;> cases req <;> decide +kernel

theorem flying_slotsOk : flying.slotsOk := slotsOk_of_rows _ (by decide +kernel) (by decide +kernel)

theorem test_meets_StopHandOversReachTheirBlocks :
    (∀ i, ((loaded .queued).slot i).restOk) ∧ ((loaded .queued).slot slotA).req = .queued :=
  ⟨(loaded_slotsOk .queued).1, by decide +kernel⟩

theorem test_meets_FilterAcceptsByItsMask :
    dark.data.slots[(0 : Fin 64)].filter = none ∧ (dark.slotSet slotA).filter = some ⟨0x101#12, 0x000#12⟩ ∧
    (⟨some ⟨0x0A0#12, 0x003#12⟩, none⟩ : SlotSet).accepts 0x0A3#12 = true ∧
    (⟨some ⟨0x0A0#12, 0x003#12⟩, none⟩ : SlotSet).accepts 0x0A4#12 = false ∧
    (⟨some ⟨0x123#12, 0xFFF#12⟩, none⟩ : SlotSet).accepts 0xABC#12 = true := by decide +kernel

/-- Cue 1's send point before the mark at 2:1, its patch accepted by slot A; the home patch; and neither. -/
theorem test_meets_ChaseTakesTheLastAcceptedPatch :
    let d := armed .ready
    let q : Pos := ⟨2, 1⟩
    (d.data.cues.map Cue.num).Nodup ∧ cueA ∈ d.data.cues ∧ (d.sched.run cueA.num).send = some ⟨1, 3, 0⟩ ∧
    (⟨1, 3, 0⟩ : TPos).upTo q.toT = true ∧ (cueA.patches.filter fun a => (d.slotSet slotA).accepts a.part) ≠ [] ∧
    (cueA.patches.filter fun a => (d.slotSet slotA).accepts a.part).getLast? = some ⟨0x101#12, 410⟩ ∧
    d.chaseAt q slotA = some 410 ∧ (d.slotSet slotA).home = some 7 ∧ d.chaseAt ⟨1, 2⟩ slotA = some 7 ∧
    (d.slotSet ⟨0, 0⟩).home = none := by decide +kernel

theorem test_meets_SlotFilterWritesAndRecomputes :
    dark.store.writing = false ∧ (100 ≤ 100 ∧ 10000 ≤ 10000) ∧
    (Instr.slotFilter 1 (.slot slotA (.code 0x0A1#12 none) .left)).rangeOk = true ∧
    (Instr.slotFilter 1 (.slot slotA (.code 0x0A1#12 (some 0xFFF#12)) (.patch 16383))).rangeOk = true ∧
    (Instr.slotFilter 1 (.slot slotA .none .none)).rangeOk = true ∧ (loaded .queued).slotsOk ∧
    (loaded .queued).ctl.state = .ready ∧ (loaded .queued).ctl.armed = some ⟨mark, 1⟩ ∧
    (loaded .queued).slotSet slotA ≠ ⟨none, none⟩ ∧ dark.ctl.armed = none ∧ follows.eng.pos = some ⟨2, 1⟩ :=
  ⟨by decide +kernel, by decide, by decide, by decide, by decide, loaded_slotsOk .queued, by decide +kernel,
    by decide +kernel, by decide +kernel, by decide +kernel, by decide +kernel⟩

theorem test_meets_PatchActionsRetriesAndLateChecks :
    (∀ req, (loaded req).slotsOk) ∧ (∀ req ∈ [Req.fault, .withheld, .idle, .queued, .sent],
      ((loaded req).slot slotA).req = req) :=
  ⟨loaded_slotsOk, by decide +kernel⟩

/-- A frame in flight; SENT with its deadline now, and one microsecond later; a report taken and one not. -/
theorem test_meets_OutcomesDeadlinesAndReports :
    let r := flying.slot slotA
    let sent (t : Time) : Dev := joined { slotIn .sent (some 410) with deadline := some t } (armed .ready)
    flying.slotsOk ∧ (r.req = .queued ∧ r.inFlight = true ∧ r.reqPatch = some 410) ∧
    (sent 0).slotsOk ∧ (((sent 0).slot slotA).req = .sent ∧ ((sent 0).slot slotA).deadline = some 0 ∧ 0 ≤ (sent 0).clock) ∧
    (sent 0).clock < 1 ∧ ((sent 0).slot slotA).attempt = some 1 ∧
    (((sent 0).slot slotA).present = true ∧ ((sent 0).slot slotA).reqPatch = some 410) ∧
    (((loaded .fault).slot slotA).req = .fault ∧ ((loaded .idle).slot slotA).req = .idle) :=
  ⟨flying_slotsOk, by decide +kernel, slotsOk_of_rows _ (by decide +kernel) (by decide +kernel), by decide +kernel,
    by decide +kernel, by decide +kernel, by decide +kernel, by decide +kernel⟩

theorem test_meets_StationsJoinAndGoOffAtTheSlots :
    (loaded .sent).slotsOk ∧ flying.slotsOk ∧ ((loaded .queued).slot slotA).req = .queued ∧
    ((loaded .queued).slot slotA).inFlight = false ∧ (flying.slot slotA).inFlight = true :=
  ⟨loaded_slotsOk .sent, flying_slotsOk, by decide +kernel⟩

theorem test_meets_CheckWordsAndStatusBytes :
    (((List.replicate 6 0xFF#8).map BitVec.toNat).sum + ((0xFF#8 : Byte).toNat * 256 + (0xFF#8 : Byte).toNat)) % 65536 ≠ 0 ∧
    readStatus 0x3C#8 = .ack ∧ readStatus 0x0C#8 = .check := by decide +kernel

/-- Station 2 gone OFF, the entry of its slot A still in the queue. -/
def offQueued : Dev := (loaded .queued).updStation 1 fun r => { r with state := .off }

/-- Each place of the order, and the two periods at their last microsecond and one before. -/
theorem test_meets_TransmitArbiterStartsTheFirstEligible :
    let l (stop : Option StopPending) (clears : List ClearEntry) (poll : Option Time) (q : List QueueEntry) : Link :=
      { Link.start with stopPending := stop, clears := clears, lastPoll := poll, queue := q }
    (busy .beacon dark).link.line = some ⟨.beacon, 1, []⟩ ∧ dark.link.line = none ∧
    (l (some ⟨3, 0⟩) [⟨1, true⟩] none []).stopPending = some ⟨3, 0⟩ ∧
    (l none [⟨0, false⟩, ⟨1, true⟩] none []).clears.find? (fun c => c.ready) = some ⟨1, true⟩ ∧
    (l none [⟨0, false⟩] none []).clears.find? (fun c => c.ready) = none ∧ dark.link.lastPoll = none ∧
    (l none [] (some 5) []).lastPoll = some 5 ∧ 5 + 20000 ≤ 20005 ∧ ¬ 5 + 20000 ≤ 20004 ∧
    (loaded .queued).link.queue = ⟨slotA, 410⟩ :: [] ∧ (l none [] (some 5) []).queue = [] ∧
    dark.link.lastBeacon = none ∧ 5 + 100000 ≤ 100005 ∧ ¬ 5 + 100000 ≤ 100004 ∧
    (let sends (d : Dev) := d.link.queue.find? fun e => d.link.stations[e.slot.station].state != .off
     sends (loaded .queued) = some ⟨slotA, 410⟩ ∧ sends dark = none ∧ sends offQueued = none ∧
       offQueued.link.queue ≠ []) := by decide +kernel

/-- The line free and not, by an outcome that waits. -/
theorem test_meets_TransmitArbiterStartsTheFirstEligible_taken :
    (∀ i p x, Instr.patchOutcome i p x ∉ dark.handovers) ∧
    ¬ ∀ i p x, Instr.patchOutcome i p x ∉ (dark.hand [.patchOutcome slotA 410 .ack]).handovers :=
  ⟨fun _ _ _ h => absurd (show _ ∈ ([] : List Instr) from h) List.not_mem_nil,
    fun h => h slotA 410 .ack (by decide +kernel)⟩

/-- No frame starts between a PATCH completion and its outcome, so the outcome of a frame whose slot was cleared and
queued again for the same patch is ignored; then the arbiter chooses (R104, R117, R121, log 6). -/
theorem test_old_outcome_is_ignored :
    let d : Dev := (loaded .queued).setLink
      { (loaded .queued).link with line := some ⟨.patch slotA 410, 1, []⟩, lastPoll := some (loaded .queued).clock }
    let e := (d.patchComplete .ack).settle
    let f := ((e.take (.patchOutcome slotA 410 .ack)).patchOutcome slotA 410 .ack).settle
    e.link.line = none ∧ e.slots = d.slots ∧ f.link.line.map Frame.kind = some (.patch slotA 410) ∧
    (f.slot slotA).req = .queued ∧ (f.slot slotA).inFlight = true ∧ f.handovers = [] := by decide +kernel

/-- No PATCH frame starts to a station that is OFF while its entry still stands in the queue; the poll that is due
goes, and then a BEACON (R124, R132, log 30). -/
theorem test_off_station_gets_no_patch :
    let d := offQueued.settle
    let e := (d.setLink { d.link with line := none }).settle
    d.link.line.map Frame.kind = some .poll ∧ e.link.line.map Frame.kind = some .beacon ∧
    e.link.queue = [⟨slotA, 410⟩] := by decide +kernel

/-- A STOP sent a third and a fourth time, one superseded by a new episode, and CLEAR frames of this epoch and an
older one. -/
theorem test_meets_BeaconStopAndClearCompletions :
    let stopping (ep sends : Nat) : Dev :=
      let d := busy (.stop 3) dark
      d.setLink { d.link with stopPending := some ⟨ep, sends⟩ }
    let b : Byte := 0x00#8
    (busy .beacon dark).link.line = some ⟨.beacon, 1, []⟩ ∧ (stopping 3 3).link.line = some ⟨.stop 3, 1, []⟩ ∧
    ((stopping 3 3).link.stopPending = some ⟨3, 3⟩ ∧ b ≠ 0x3C#8 ∧ b ≠ 0x0F#8 ∧ b ≠ 0xFF#8 ∧ 3 < 4) ∧
    ((stopping 3 4).link.stopPending = some ⟨3, 4⟩ ∧ ¬ 4 < 4) ∧
    ((stopping 4 0).link.stopPending = some ⟨4, 0⟩ ∧ 4 ≠ 3) ∧
    (busy (.clear 1) dark).link.line = some ⟨.clear 1, 1, []⟩ ∧ dark.link.epoch = 1 ∧
    { dark.link with epoch := 2 }.epoch ≠ 1 ∧ dark.link.line = none := by decide +kernel

/-- Station 2 with a fault count one failure below WARN and one below OFF. -/
theorem test_meets_PatchCompletionCountsHealth :
    let d (n : Nat) : Dev :=
      flying.setLink { flying.link with stations := flying.link.stations.set 1 ⟨.active, n, 0, 1, none, 0⟩ }
    flying.link.line = some ⟨.patch slotA 410, 1, []⟩ ∧ flying.link.epoch = 1 ∧
    { flying.link with epoch := 2 }.epoch ≠ 1 ∧ ((d 88).station slotA.station).state = .active ∧
    88 + 8 = 96 ∧ ((d 248).station slotA.station).faults + 8 = 256 ∧ (Station.start).state ≠ .off ∧
    { Station.start with state := .off }.state = .off ∧ dark.link.line = none := by decide +kernel

/-- A block of eight bytes that passes its check. -/
def passes : List Byte → Bool
  | [a, k, b3, b4, b5, b6, hi, lo] =>
    (([a, k, b3, b4, b5, b6].map BitVec.toNat).sum + (hi.toNat * 256 + lo.toNat)) % 65536 == 0
  | _ => false

/-- Reports of every kind from station 3, with the values at the ends of their ranges and one past them; addresses 0
and 17; a block that fails. -/
theorem test_meets_PollCompletionTakesTheReplyBlock :
    (busy .poll dark).link.line = some ⟨.poll, 1, []⟩ ∧ dark.link.epoch = 1 ∧ dark.link.line = none ∧
    (∀ six ∈ ([[3, 0, 0, 0, 0, 0], [3, 1, 1, 0, 0, 0], [3, 1, 4, 0, 0, 0], [3, 1, 5, 0, 0, 0], [3, 2, 0, 1, 0x9A, 0],
      [3, 2, 3, 0x3F, 0xFF, 1], [3, 2, 4, 0, 0, 0], [3, 2, 0, 0x40, 0, 0], [3, 2, 0, 0, 0, 2], [3, 3, 0, 0, 0, 0],
      [3, 4, 0, 0, 0, 0], [3, 5, 0, 0, 0, 0], [0, 0, 0, 0, 0, 0], [17, 0, 0, 0, 0, 0]] : List (List Byte)),
      passes (checked six) = true) ∧
    passes (List.replicate 8 0xFF#8) = false ∧ (0x3F : Nat) * 256 + 0xFF = 16383 ∧ (0x40 : Nat) * 256 + 0 = 16384 ∧
    (3#8 : Byte).toNat = (2 : Fin 16).val + 1 ∧
    (let r : Station := { Station.start with state := .off, polls := 16 }
     r.state = .off ∧ ¬ (r.state = .off ∧ r.polls ≠ 16) ∧ { r with polls := 15 }.polls ≠ 16) ∧
    ((loaded .idle).station 1).state = .active ∧ dark.data.perms[(2 : Fin 16)] ≠ .allowed ∧
    (dark.data.perms.set 2 .allowed)[(2 : Fin 16)] = .allowed := by decide +kernel

theorem test_meets_VideoAndOutputSettings :
    (Instr.videoSet 1 ⟨some .hz5994, some 6⟩).rangeOk = true ∧ Standard.hz5994 ≠ dark.data.std ∧
    (armed .running).ctl.state = .running ∧ dark.ctl.state = .dark ∧ dark.store.writing = false ∧
    (Instr.videoSet 1 ⟨none, none⟩).rangeOk = true ∧ (Instr.outSet 1 2 ⟨none, some 8, none⟩).rangeOk = true ∧
    (∃ r : Fin 4, dark.data.rooms[r].out = some 2) ∧ (∀ r : Fin 4, dark.data.rooms[r].out ≠ some 3) ∧
    (Instr.outSet 1 3 ⟨some .focus, some 0, some false⟩).rangeOk = true := by decide +kernel

/-- A written source and a hand-over change the current camera at the next frame start, not before (R141, R142); of
CAM2 and then FOCUS in one frame the output keeps the camera it had. -/
theorem test_cameras_change_at_a_frame_start :
    let cam (d : Dev) := d.video.outs[(3 : Fin 6)].cam
    let set (x : OutSource) (d : Dev) := ran (.outSet 1 3 ⟨some x, none, none⟩) d
    let frame (d : Dev) := ran (.referenceFrameStart none none) (d.setClock (d.frameStart d.video.nextFrame))
    let d1 := set .cam2 dark
    let d2 := frame (set .focus d1)
    let d3 := ran (.focusHandoverVideo (some ⟨.tap3, some .cam2, ascii "TAP3"⟩)) d2
    cam d1 = .cam1 ∧ cam (frame d1) = .cam2 ∧ cam d2 = .cam1 ∧ cam d3 = .cam1 ∧ cam (frame d3) = .cam2 ∧
    cam (frame (frame d3)) = .cam2 := by decide +kernel

/-- The small show stopped by the port, its blink at a frame. -/
def stopped (blink : Nat) : Dev := { dark with
  ctl := { dark.ctl with state := .stopped, holders := [.port], first := some .port }
  video := { dark.video with blink := some blink } }

/-- A field that would overlap another by one cell, and one just past it; the fields and pages as drawn. -/
theorem test_meets_OverlayRequestsWriteCellsAndPlaces :
    dark.store.writing = false ∧ (1 ≤ 2 ∧ 2 ≤ 2 ∧ 1 ≤ 32 ∧ 32 ≤ 32) ∧
    (Instr.ovlField 1 .beat (some ⟨1, 4⟩)).rangeOk = true ∧ Field.bar ≠ .beat ∧ fieldPage .bar = fieldPage .beat ∧
    dark.data.fields[Field.bar.index] = some ⟨1, 1⟩ ∧ 4 < 1 + fieldWidth .bar ∧ 1 < 4 + fieldWidth .beat ∧
    ¬ 5 < 1 + fieldWidth .bar ∧ (Instr.ovlField 1 .beat none).rangeOk = true ∧
    ((stopped 49).nextCue.map Cue.num = some 10 ∧ (dark.setData { dark.data with cues := [] }).nextCue = none ∧
      (stopped 49).ctl.first = some .port ∧ dark.ctl.first = none) ∧
    ((stopped 49).video.blink = some 49 ∧ 49 / 25 % 2 = 1 ∧ 50 / 25 % 2 ≠ 1 ∧ 24 / 25 % 2 ≠ 1 ∧
      ((stopped 49).data.page .stop)[(0 : Fin 64)].flash = true) ∧
    (∀ f ∈ allFields, f = .bar ∨ fieldPage f = .stop ∨ ¬ coversCell f (dark.data.fields[f.index].getD ⟨1, 1⟩) 3) ∧
    coversCell .bar ⟨1, 1⟩ 3 = true ∧
    ∀ f ∈ allFields, fieldPage f = .stop ∨ ¬ coversCell f (dark.data.fields[f.index].getD ⟨1, 1⟩) 4 := by decide +kernel

/-- The two pages as drawn: the RUN page of a run in bar 12 with the flash running and the holder LAPSED, and the STOP
page in the first half-period of its blink and in the second (R144 to R149). -/
theorem test_pages :
    let text (l : List Drawn) : Text := l.map Drawn.code
    let run := (held .tap1 .lapsed follows).drawPage .run (some ⟨12, 3⟩) 1
    text run = ascii "  12  3 120             1 TAP1  " ++ List.replicate 32 32#8 ∧
    (run.zipIdx.filterMap fun x => if x.1.inv then some x.2 else none) = [5, 6, 26, 27, 28, 29, 30, 31] ∧
    text ((stopped 24).drawPage .stop none 0) =
      ascii "SHOW STOP  PORT" ++ List.replicate 17 32#8 ++ ascii "RESUME" ++ List.replicate 26 32#8 ∧
    text ((stopped 25).drawPage .stop none 0) =
      List.replicate 11 32#8 ++ ascii "PORT" ++ List.replicate 17 32#8 ++ ascii "RESUME" ++ List.replicate 26 32#8 := by
  decide +kernel

/-- A beat mark on a frame's start and one microsecond after it; a frame that is due and one that is not. -/
theorem test_meets_ReferenceFramesShowTheDelayedSlot :
    (40000 ≤ dark.video.origin + 2 * dark.data.std.frame ∧ ∀ j, j < 2 → dark.video.origin + j * dark.data.std.frame < 40000) ∧
    (40001 ≤ dark.video.origin + 3 * dark.data.std.frame ∧ ∀ j, j < 3 → dark.video.origin + j * dark.data.std.frame < 40001) ∧
    dark.video.origin + dark.video.nextFrame * dark.data.std.frame ≤ dark.clock ∧
    (let v := { dark.video with nextFrame := 1 }
     dark.clock < v.origin + v.nextFrame * dark.data.std.frame) ∧
    (let r : OutRun := { OutRun.start with next := some .cam2 }
     r.next.getD r.cam = .cam2 ∧ OutRun.start.next.getD OutRun.start.cam = .cam1) := by decide +kernel

/-- ARM refused by state, by an unknown mark, by a gap and by a mark outside the form; and taken, pinned or not. -/
theorem test_meets_ArmIsCheckedAndReachesEveryBlock :
    (Instr.arm 1 (ascii "ACT1")).rangeOk = true ∧ (armed .running).ctl.state = .running ∧
    (∀ m ∈ Dev.reset.data.marks, m.name ≠ ascii "ACT1") ∧
    dark.data.marks.find? (fun x => x.name == ascii "ACT1") = some mark ∧ covered [e1, e3] = false ∧
    (covered form = true ∧ inForm form ⟨5, 4⟩ = false) ∧ inForm form mark.pos = true ∧
    entryOfBar form mark.pos.bar = some (1, e1) ∧ (loaded .queued).takeShowChanges.slotsOk ∧
    (loaded .queued).ctl.state = .ready ∧ ((loaded .queued).data.cues.map Cue.num).Nodup ∧
    (inShow .stopped (armed .ready)).ctl.state = .stopped ∧ (loaded .queued).arb.pin = false ∧
    (dark.setArb { (held .tap1 .active dark).arb with pin := true }).arb.pin = true :=
  ⟨by decide +kernel, rfl, by decide, by decide +kernel, by decide +kernel, by decide +kernel, by decide +kernel,
    by decide +kernel, loaded_slotsOk .queued, by decide +kernel, by decide +kernel, rfl, rfl, rfl⟩

theorem test_meets_GoAndTheSignalsMoveTheShow :
    (dark.ctl.state = .dark ∧ (inShow .stopped dark).ctl.state = .stopped ∧ (armed .arming).ctl.state = .arming) ∧
    (follows.ctl.state = .running ∧ ∀ k, follows.eng.st ≠ .hold k) ∧
    (hold0.ctl.state = .running ∧ hold0.eng.st = .hold .point) ∧
    (let g := { counting 0 with st := .hold .mark, due := none }
     (armed .countIn).ctl.state = .countIn ∧ g.st = .hold .mark) ∧
    ((armed .ready).ctl.state = .ready ∧ (armed .ready).eng.prepared = some ⟨⟨1, 1⟩, 1, 1, 4, 500000⟩ ∧
      entryAt (armed .ready).data.form 1 = some e1 ∧ 0 < 4 ∧ e1.mode = .follow ∧ e2.mode = .lead) ∧
    (let p (i : Nat) (q : Pos) (m : Nat) : Prepared := ⟨q, i, 0, m, 500000⟩
     (p 1 ⟨1, 1⟩ 4).bars = 0 ∧ entryAt form 1 = some e1 ∧ (p 2 ⟨5, 1⟩ 3).bars = 0 ∧ entryAt form 2 = some e2) := by
  refine ⟨by decide +kernel, ⟨rfl, fun k h => (by cases h)⟩, by decide +kernel, by decide +kernel, by decide +kernel,
    by decide +kernel⟩

/-- STATUS SHOW at its widest fits a line: every class missed, nineteen holders, the widest numbers and times (R176). -/
theorem test_status_show_fits :
    let line : LineRun := ⟨.asserted, 281474976710655, .asserted⟩
    let stations : List Holder := (List.range 16).map fun n => .station (Fin.ofNat 16 n)
    let d := { dark with
      ctl := { dark.ctl with
        state := .stopped, holders := .lineA :: .lineB :: .port :: stations, episode := 65535, count := 64
        armed := some ⟨{ mark with name := ascii "ACT1-NEW" }, 1⟩, lineA := line, lineB := line }
      port := { dark.port with missed := NoticeClass.all } }
    (Reply.spell ⟨255, (d.status .showCtl).2⟩).length = 194 ∧
    d.section_ .showCtl = d.showFields ++
      [⟨"LINE_A", [.word "ASSERTED", .num 281474976710655]⟩, ⟨"LINE_B", [.word "ASSERTED", .num 281474976710655]⟩] := by
  decide +kernel

/-- A first holder, a second one, one that already holds; the last to leave and one of two; a line at the end of its
settling time and one microsecond before. -/
theorem test_meets_StopHoldersJoinAndLeave :
    let stopped (hs : List Holder) : Dev := dark.setCtl { dark.ctl with state := .stopped, holders := hs }
    let line : LineRun := ⟨.asserted, 100, .released⟩
    (Instr.stop 1 (some 255)).rangeOk = true ∧ dark.ctl.holders = [] ∧ Holder.port ∉ (stopped [.lineA]).ctl.holders ∧
    (stopped [.lineA]).ctl.holders ≠ [] ∧ Holder.port ∈ (stopped [.port, .lineA]).ctl.holders ∧
    (stopped [.port]).ctl.holders.erase .port = [] ∧ (stopped [.port, .lineA]).ctl.holders.erase .port ≠ [] ∧
    Level.asserted ≠ (dark.ctl.line .a).level ∧ Level.released = (dark.ctl.line .a).level ∧
    line.level ≠ line.taken ∧ line.changed + 10000 ≤ 10100 ∧ ¬ line.changed + 10000 ≤ 10099 ∧
    (dark.station 3).state ≠ .off ∧ { dark.station 3 with state := .off }.state = .off := by decide +kernel

theorem test_meets_SaveLoadAndErase :
    (armed .running).ctl.state = .running ∧ dark.ctl.state = .dark ∧ dark.store.writing = false ∧
    (saving dark).store.writing = true ∧ (armed .ready).ctl.state ≠ .dark ∧ (armed .ready).ctl.state ≠ .done ∧
    (inShow .done dark).ctl.state = .done ∧ dark.store.cond = .invalid ∧ (imaged 0#16 dark).store.cond = .valid ∧
    (let d := (saving dark).setClock 4000000
     d.store.began = some 0 ∧ 0 + 4000000 ≤ d.clock ∧ (on d).pending = []) ∧
    (let d := saving (quiet 4000000)
     Dev.nextEvent { d with store := { d.store with began := none } } = none ∧ d.store.began = some 0) := by
  decide +kernel

/-- A save ends by itself 4 000 000 us after it began, and the clock counts until then (R178, log 29). -/
theorem test_save_ends_by_itself :
    (saving (quiet 3999999)).nextEvent = none ∧
    (saving (quiet 4000000)).nextEvent = some (.saveComplete (Config.imageSum 0)) ∧
    (ran (.saveComplete 0#16) (saving dark)).store.cond = .valid ∧
    (ran (.saveComplete 5#16) (saving dark)).store.cond = .invalid := by
  refine ⟨by decide +kernel, rfl, by decide +kernel, by decide +kernel⟩

/-- A load and an erase in DARK send the stop record (R167). -/
theorem test_load_sends_the_record :
    let d := { imaged 0#16 dark with port := { dark.port with sending := some (.notice (.vamp (.leave 1))), recordChanged := false } }
    (ran (.showLoad 7) d).port.recordChanged = true ∧ (ran (.showErase 7) d).port.recordChanged = true ∧
    (ran (.showErase 7) d).store.sum = none := by decide +kernel

theorem test_meets_PowerOnAndReset :
    let c : Control := { dark.ctl with lineA := ⟨.asserted, 0, .released⟩, lineB := ⟨.asserted, 0, .released⟩ }
    c.lineA.level = .asserted ∧ dark.ctl.lineA.level = .released ∧ { c with episode := 65535 }.episode = 65535 ∧
    dark.store.writing = false ∧ (saving dark).store.writing = true ∧ (imaged 0#16 dark).store.sum = some 0#16 ∧
    (imaged 1#16 dark).store.sum ≠ some 0#16 ∧ (saving dark).store.sum = none ∧
    { dark.link with epoch := 255 }.epoch = 255 := by decide +kernel

/-- A state with a slot that waits in the patch queue meets the runtime invariants, and a step leaves it. -/
theorem test_meets_EveryStepKeepsTheRuntimeInvariants :
    (loaded .queued).Sound ∧ ∃ t, step ⟨loaded .queued, [.pollDue]⟩ = .next t := by
  refine ⟨⟨?_, lanesOk_of_empty _ (by decide +kernel), ?_, ?_, ?_, loaded_slotsOk .queued,
    schedOk_of_runs _ (by decide +kernel), ?_, ?_⟩, _, rfl⟩
  · unfold Port.queuesOk; decide +kernel
  · unfold Control.stopOk; decide +kernel
  · unfold Engine.dueOk; decide +kernel
  · unfold Arbiter.pinOk; decide +kernel
  · unfold Store.sumOk; decide +kernel
  · unfold Dev.camsOk; decide +kernel

/-- The small show in the count-in of its mark, one count beat emitted. -/
def inCount : Dev :=
  let d := armed .countIn
  d.setEng { d.eng with st := .count, entry := some 1, pos := some ⟨1, 1⟩, last := some 0, due := some 500000, counter := 3 }

/-- The runtime invariants hold in the count-in. -/
theorem inCount_sound : inCount.Sound := by
  refine ⟨?_, lanesOk_of_empty _ (by decide +kernel), ?_, ?_, ?_, ?_, schedOk_of_runs _ (by decide +kernel), ?_, ?_⟩
  · unfold Port.queuesOk; decide +kernel
  · unfold Control.stopOk; decide +kernel
  · unfold Engine.dueOk; decide +kernel
  · unfold Arbiter.pinOk; decide +kernel
  · exact slotsOk_of_rows _ (by decide +kernel) (by decide +kernel)
  · unfold Store.sumOk; decide +kernel
  · unfold Dev.camsOk; decide +kernel

theorem test_meets_EveryStepKeepsTheTables :
    inCount.Sound ∧ inCount.tablesOk ∧ inCount.data.form ≠ [] ∧ inCount.ctl.inForce = true ∧ inCount.ctl.state = .countIn ∧
    inCount.eng.st = .count ∧ inCount.entryNow = some e1 ∧ ∃ t, step ⟨inCount, [.pollDue]⟩ = .next t := by
  refine ⟨inCount_sound, ⟨?_, ?_, ⟨by decide, ?_⟩, ?_, fun _ _ => by decide +kernel, ?_⟩, by decide, by decide, by decide, by decide,
    by decide +kernel, _, rfl⟩
  · exact tablesOk_of _ (by decide +kernel) (by decide +kernel)
  · exact tablesOk_of _ (by decide +kernel) (by decide +kernel)
  · intro c h; cases h; decide
  · exact fun _ => ⟨_, e1, rfl, by decide +kernel, by unfold FormEntry.allows; decide +kernel⟩
  · intro _ _ e h
    have h1 : inCount.entryNow = some e1 := by decide +kernel
    rw [h1] at h; cases h
    unfold FormEntry.allows; decide +kernel

end Sys2Proof.Tests
end

