-- ==== Sys2Proof/Proofs/Focus.lean ====
section
/-! SUPPORT. The tap front end, the windows and the focus holder, one rule per operation of the Source Arbiter; and the
statements on taps, on the first tap, and on pin and free (spec 03). -/

namespace Sys2Proof.Machine

/-! ### Notices raised once a request is taken -/

/-- A notice joins its queue whatever request is in hand (R172). -/
theorem portRaise_inHand (p : Port) (i : Option Instr) (n : Notice) :
    ({ p with inHand := i } : Port).raise n = { p.raise n with inHand := i } := by
  simp only [Port.raise, Port.miss]; repeat' split
  all_goals rfl

theorem portRaiseAll_inHand (p : Port) (i : Option Instr) (ns : List Notice) :
    ns.foldl Port.raise { p with inHand := i } = { ns.foldl Port.raise p with inHand := i } := by
  induction ns generalizing p with
  | nil => rfl
  | cons n ns ih => rw [List.foldl_cons, portRaise_inHand, ih, List.foldl_cons]

/-- What an owner raises with the port as taking its request left it, counts from the port before. -/
theorem raised_of_taken {a b c : Dev} {i : Instr} {ns : List Notice} (h : b.port = (a.takeRequest i).port)
    (h' : c = b.raiseAll ns) : Dev.Raised ns a c := by
  subst h'
  simp [Dev.Raised, Dev.same, raiseAll_port, h, takeRequest_port, portRaiseAll_inHand]

/-! ### What notices leave alone -/

@[simp] theorem raiseAll_eng (d : Dev) (ns : List Notice) : (d.raiseAll ns).eng = d.eng :=
  ((keeps_raiseAll (by decide)).2 keeps_refl : Dev.Keeps [.notices] d (d.raiseAll ns)).eng

@[simp] theorem raiseAll_arb (d : Dev) (ns : List Notice) : (d.raiseAll ns).arb = d.arb :=
  ((keeps_raiseAll (by decide)).2 keeps_refl : Dev.Keeps [.notices] d (d.raiseAll ns)).arb

@[simp] theorem raiseAll_handovers (d : Dev) (ns : List Notice) : (d.raiseAll ns).handovers = d.handovers :=
  ((keeps_raiseAll (by decide)).2 keeps_refl : Dev.Keeps [.notices] d (d.raiseAll ns)).handovers

/-! ### The front end (R47, R48) -/

/-- The debounce test passes with no accepted tap before, or one at least the debounce time back (R47). -/
theorem accepts_iff (last : Option Time) (debounce : Nat) (t : Time) :
    accepts last debounce t = true ↔ ∀ u, last = some u → u + debounce * 1000 ≤ t := by
  cases last <;> simp [accepts]

/-- The edges each edge select names (R47). -/
theorem selects_iff (e : Option EdgeSel) (dir : EdgeDir) :
    selects e dir = true ↔
      (e = some .rise ∧ dir = .rising) ∨ (e = some .fall ∧ dir = .falling) ∨ e = some .both := by
  rcases e with _ | e
  · simp [selects]
  · cases e <;> cases dir <;> simp [selects]

/-- An accepted edge counts as a tap at its time and is routed (R47). -/
theorem frontEnd_of_accepts {d : Dev} {x : Src} {t : Time}
    (h : accepts (d.arb.srcs.get x).lastTap (d.data.srcs.get x).debounce t = true) :
    d.frontEnd x t =
      (d.updSrc x fun r => { r with taps := min 65535 (r.taps + 1), lastTap := some t }).routeTap x t :=
  if_pos h

/-- An edge inside the debounce time counts as a bounce (R47). -/
theorem frontEnd_of_not_accepts {d : Dev} {x : Src} {t : Time}
    (h : ¬ accepts (d.arb.srcs.get x).lastTap (d.data.srcs.get x).debounce t = true) :
    d.frontEnd x t = d.updSrc x fun r => { r with bounces := min 65535 (r.bounces + 1) } :=
  if_neg h

theorem exec_tapLineEdge (k : Fin 4) (dir : EdgeDir) (s : State) :
    exec (.tapLineEdge k dir) s = .next (s.ended (s.dev.lineEdge k dir)) := rfl

/-- A selected edge enters the front end at the clock time (R47). -/
theorem lineEdge_of_selects {d : Dev} {k : Fin 4} {dir : EdgeDir}
    (h : selects (d.data.srcs.get (Src.ofLine k)).edge dir = true) :
    d.lineEdge k dir = d.frontEnd (Src.ofLine k) d.clock := if_pos h

/-- An edge not selected changes nothing (R47). -/
theorem lineEdge_of_not_selects {d : Dev} {k : Fin 4} {dir : EdgeDir}
    (h : ¬ selects (d.data.srcs.get (Src.ofLine k)).edge dir = true) : d.lineEdge k dir = d := if_neg h

/-- Settles O21: an edge that is selected goes through the debounce test, the only thing that decides its fate. -/
theorem tapsPassTheFrontEnd : Obligations.TapsPassTheFrontEnd := by
  unfold Obligations.TapsPassTheFrontEnd
  intro k dir s x set run selected outside
  have hsel : selects set.edge dir = true ↔ selected := selects_iff _ _
  have hout : accepts run.lastTap set.debounce s.dev.clock = true ↔ outside := accepts_iff _ _ _
  rw [← hsel, ← hout, exec_tapLineEdge]
  refine ⟨fun h => ?_, fun h ha => ?_, fun h ha => ?_⟩
  · rw [lineEdge_of_not_selects h]
  · rw [lineEdge_of_selects h, frontEnd_of_accepts ha]; rfl
  · rw [lineEdge_of_selects h, frontEnd_of_not_accepts ha]; rfl

/-! ### The holder changed, removed and pinned (R49, R59) -/

section
variable (d : Dev) (x : Src) (prev : Option (Time × BeatRef))

@[simp] theorem takeFocus_clock : (d.takeFocus x prev).clock = d.clock := rfl
@[simp] theorem takeFocus_eng : (d.takeFocus x prev).eng = d.eng.focusChange prev := rfl
@[simp] theorem takeFocus_port : (d.takeFocus x prev).port = d.port := rfl
@[simp] theorem takeFocus_arb : (d.takeFocus x prev).arb =
    { d.arb with
      srcs := d.arb.srcs.set x (d.arb.srcs.get x).unclaim
      focus := some ⟨x, .active⟩
      misses := 0 } := rfl
@[simp] theorem takeFocus_handovers : (d.takeFocus x prev).handovers =
    d.handovers ++ [.focusHandoverVideo (some (d.focusHand x))] := rfl

@[simp] theorem dropFocus_clock : d.dropFocus.clock = d.clock := rfl
@[simp] theorem dropFocus_eng : d.dropFocus.eng = d.eng.focusChange none := rfl
@[simp] theorem dropFocus_port : d.dropFocus.port = d.port := rfl
@[simp] theorem dropFocus_arb : d.dropFocus.arb =
    { d.arb with
      srcs := d.arb.srcs.mapAll fun _ r => r.unclaim
      focus := none
      misses := 0 } := rfl
@[simp] theorem dropFocus_handovers : d.dropFocus.handovers = d.handovers ++ [.focusHandoverVideo none] := rfl

/-- A FOCUS notice is one notice of the focus as it stands (R61). -/
theorem raiseFocus_eq (c : FocusCause) (before : Option Src) :
    d.raiseFocus c before = d.raiseAll [.focus c d.arb.holder before d.arb.status d.arb.pin d.clock] := rfl
end

theorem perSrc_get_mapAll {α β : Type} (f : Src → α → β) (p : PerSrc α) (x : Src) :
    (p.mapAll f).get x = f x (p.get x) := by cases x <;> rfl

/-- The part as a pin of `x` leaves it, before the notice: the holder already keeps everything but the pin (R59). -/
def Dev.pinned (d : Dev) (x : Src) : Dev :=
  let d := if d.arb.holder = some x then d else d.takeFocus x none
  d.setArb { d.arb with pin := true }

theorem pinFocus_eq (d : Dev) (x : Src) : d.pinFocus x = (d.pinned x).raiseFocus .pin d.arb.holder := rfl

theorem pinned_of_holder {d : Dev} {x : Src} (h : d.arb.holder = some x) :
    d.pinned x = d.setArb { d.arb with pin := true } := by rw [Dev.pinned, if_pos h]

theorem pinned_of_not_holder {d : Dev} {x : Src} (h : d.arb.holder ≠ some x) :
    d.pinned x = (d.takeFocus x none).setArb { (d.takeFocus x none).arb with pin := true } := by
  rw [Dev.pinned, if_neg h]

/-- After a pin of `x`, `x` is the holder whoever held before (R59). -/
theorem pinned_holder (d : Dev) (x : Src) : (d.pinned x).arb.holder = some x := by
  by_cases h : d.arb.holder = some x
  · rw [pinned_of_holder h]; exact h
  · rw [pinned_of_not_holder h]; rfl

@[simp] theorem pinned_pin (d : Dev) (x : Src) : (d.pinned x).arb.pin = true := rfl

@[simp] theorem pinned_port (d : Dev) (x : Src) : (d.pinned x).port = d.port := by
  unfold Dev.pinned; split <;> rfl

@[simp] theorem pinned_clock (d : Dev) (x : Src) : (d.pinned x).clock = d.clock := by
  unfold Dev.pinned; split <;> rfl

theorem exec_focusPin (tag : Nat) (x : Src) (s : State) :
    exec (.focusPin tag x) s =
      .next (s.replied tag (.ok [⟨"", [.word x.word]⟩]) ((s.dev.takeRequest (.focusPin tag x)).pinFocus x)) :=
  request_eq s tag (Dev.focusPin x) rfl

theorem exec_focusFree (tag : Nat) (s : State) :
    exec (.focusFree tag false) s =
      .next (s.replied tag (.ok []) (s.dev.takeRequest (.focusFree tag false)).freeFocus) :=
  request_eq s tag (Dev.focusFree false) rfl

theorem exec_focusFreeClear (tag : Nat) (s : State) :
    exec (.focusFree tag true) s =
      .next (s.replied tag (.ok []) (s.dev.takeRequest (.focusFree tag true)).clearFocus) :=
  request_eq s tag (Dev.focusFree true) rfl

/-- FOCUS.FREE clears the pin and tells of it when it was set (R59, R61). -/
theorem freeFocus_eq (d : Dev) :
    d.freeFocus = (d.setArb { d.arb with pin := false }).raiseAll
      (if d.arb.pin then [.focus .free d.arb.holder d.arb.holder d.arb.status false d.clock] else []) := by
  unfold Dev.freeFocus; cases d.arb.pin <;> rfl

/-- FOCUS.FREE CLEAR clears the pin, removes the holder, and tells of it when there was either (R59, R61). -/
theorem clearFocus_eq (d : Dev) :
    d.clearFocus = (d.setArb { d.arb with pin := false }).dropFocus.raiseAll
      (if d.arb.pin || d.arb.holder.isSome then [.focus .clear none d.arb.holder none false d.clock] else []) := by
  unfold Dev.clearFocus; dsimp only; split <;> rfl

/-- Settles O28: each request is its owner's equation, read block by block. -/
theorem pinAndFreeRequests : Obligations.PinAndFreeRequests := by
  unfold Obligations.PinAndFreeRequests
  intro tag s a holder cleared
  refine ⟨fun x => ?pin, ?free, ?clear⟩
  case pin =>
    refine ⟨_, exec_focusPin tag x s, by simp, rfl, fun h => ?_, fun h => ?_, ?_⟩
    · rw [pinFocus_eq, pinned_of_holder (by simpa [Arbiter.holder, holder, a] using h)]
      simp [Dev.raiseFocus, a]
    · rw [pinFocus_eq, pinned_of_not_holder (by simpa [Arbiter.holder, holder, a] using h)]
      simp [Dev.raiseFocus, a, cleared, Engine.focusChange, SrcRun.unclaim, Dev.focusHand]
    · refine raised_of_taken (i := .focusPin tag x) (pinned_port _ x) ?_
      rw [pinFocus_eq, raiseFocus_eq, pinned_holder, raiseAll_arb]
      simp [Arbiter.status, Arbiter.holder, a, holder]
  case free =>
    refine ⟨_, exec_focusFree tag s, by simp, by simp [freeFocus_eq, a], ?_⟩
    refine raised_of_taken (i := .focusFree tag false)
      (b := (s.dev.takeRequest _).setArb { a with pin := false }) rfl ?_
    simp [freeFocus_eq, Arbiter.holder, Arbiter.status, holder, a]
  case clear =>
    refine ⟨_, exec_focusFreeClear tag s, by simp, ?_⟩
    simp only [clearFocus_eq, raiseAll_eng, raiseAll_arb, raiseAll_handovers]
    refine ⟨?_, rfl, rfl, rfl, fun x => ?_, ?_, ?_⟩
    · simp [cleared, Engine.focusChange]
    · simp [perSrc_get_mapAll, SrcRun.unclaim, a]
    · simp
    · refine raised_of_taken (i := .focusFree tag true)
        (b := ((s.dev.takeRequest _).setArb { a with pin := false }).dropFocus) rfl ?_
      simp [Arbiter.holder, holder, a]

/-! ### The coming beat and the windows (R25, R50) -/

/-- Outside a MARK hold the entry at L decides FOLLOW or LEAD (R17, R50). -/
theorem followNow_iff {d : Dev} (h : d.eng.st ≠ .hold .mark) :
    d.followNow = true ↔ ∃ i e, d.eng.entry = some i ∧ entryAt d.data.form i = some e ∧ e.mode = .follow := by
  have hcur : d.eng.current = d.eng.entry := by
    unfold Engine.current; split <;> simp_all
  simp only [Dev.followNow, Dev.entryNow, hcur]
  cases d.eng.entry with
  | none => simp
  | some i => cases hi : entryAt d.data.form i <;> simp [hi]

/-- The late window of the beat at L (R50). -/
theorem inLate_iff {d : Dev} {t : Time} (h : d.eng.st ≠ .hold .mark) :
    d.inLate t = true ↔ (∃ l, d.eng.last = some l ∧ t - l ≤ d.eng.window) ∧
      ∃ i e, d.eng.entry = some i ∧ entryAt d.data.form i = some e ∧ e.mode = .follow := by
  rw [← followNow_iff h, Dev.inLate]
  cases d.eng.last <;> simp [and_comm]

/-- The early window of the coming beat (R50). -/
theorem inEarly_iff {d : Dev} {t : Time} :
    d.inEarly t = true ↔ (d.eng.st = .count ∨ d.eng.st = .run) ∧
      (∃ n, d.eng.due = some n ∧ t ≤ n ∧ n - t ≤ d.earlyWidth) ∧
      ∃ e p, comingBeat d.data.form d.eng = some (e, p) ∧ e.mode = .follow := by
  unfold Dev.inEarly
  split
  · next hst hdue hbeat => simp [hst, hdue, hbeat, and_comm, and_assoc]
  · next hst hdue hbeat => simp [hst, hdue, hbeat, and_comm, and_assoc]
  · next hc hr =>
    refine iff_of_false (by decide) ?_
    rintro ⟨hst | hst, ⟨n, hdue, -⟩, e, p, hbeat, -⟩
    · exact hc _ _ _ hst hdue hbeat
    · exact hr _ _ _ hst hdue hbeat

theorem map_entry_eq_some_iff {o : Option FormEntry} {q p : Pos} {e : FormEntry} :
    (o.map fun e' => (e', q)) = some (e, p) ↔ o = some e ∧ p = q := by
  rw [Option.map_eq_some_iff]
  constructor
  · rintro ⟨e', ho, heq⟩
    cases heq
    exact ⟨ho, rfl⟩
  · rintro ⟨ho, rfl⟩
    exact ⟨e, ho, rfl⟩

/-- In COUNT the coming beat is the prepared mark's, a count beat or the mark's own (R40, R41). -/
theorem comingBeat_of_count {form : List FormEntry} {g : Engine} {c : Prepared} (h : g.st = .count)
    (hc : g.prepared = some c) : comingBeat form g = (entryAt form c.entry).map fun e => (e, c.pos) := by
  unfold comingBeat coming
  by_cases hleft : 0 < g.counter <;> simp [h, hc, hleft]

theorem comingBeat_count_iff {form : List FormEntry} {g : Engine} {e : FormEntry} {p : Pos} (h : g.st = .count) :
    comingBeat form g = some (e, p) ↔
      ∃ c, g.prepared = some c ∧ entryAt form c.entry = some e ∧ p = c.pos := by
  cases hc : g.prepared with
  | none =>
    have hnone : comingBeat form g = none := by
      unfold comingBeat coming
      by_cases hleft : 0 < g.counter <;> simp [h, hc, hleft]
    simp [hnone]
  | some c =>
    rw [comingBeat_of_count h hc, map_entry_eq_some_iff]
    exact ⟨fun hp => ⟨c, rfl, hp⟩, fun ⟨_, hsame, hp⟩ => by cases hsame; exact hp⟩

/-- The successor of a position is a beat of the score, a new pass of the vamp, or the act end (R21, R36). -/
theorem successor_cases (form : List FormEntry) (p : Pos) (e : FormEntry) (rel : Release) :
    (∃ q j, successor form p e rel = .beat q j) ∨ (∃ q, successor form p e rel = .loop q) ∨
      successor form p e rel = .actEnd := by
  unfold successor plainSuccessor
  repeat' split
  all_goals simp

/-- A coming beat of the score is in its own entry (R21). -/
theorem comingBeat_of_beat {form : List FormEntry} {g : Engine} {q : Pos} {j : Nat}
    (h : coming form g = some (.beat q j)) : comingBeat form g = (entryAt form j).map fun e => (e, q) := by
  simp only [comingBeat, h]

/-- A vamp loops back inside the entry at L (R36). -/
theorem comingBeat_loop_iff {form : List FormEntry} {g : Engine} {e : FormEntry} {p q : Pos}
    (h : coming form g = some (.loop q)) :
    comingBeat form g = some (e, p) ↔ p = q ∧ ∃ i, g.entry = some i ∧ entryAt form i = some e := by
  simp only [comingBeat, h]
  cases g.entry with
  | none => simp
  | some i => simp only [map_entry_eq_some_iff, and_comm, Option.some.injEq, exists_eq_left']

/-- In RUN the coming beat is one of the score or the first of a new pass of the vamp (R21, R36). -/
theorem comingBeat_run_iff {form : List FormEntry} {g : Engine} {e : FormEntry} {p : Pos} (h : g.st = .run) :
    comingBeat form g = some (e, p) ↔
      (∃ j, coming form g = some (.beat p j) ∧ entryAt form j = some e) ∨
        (coming form g = some (.loop p) ∧ ∃ i, g.entry = some i ∧ entryAt form i = some e) := by
  have hcases : ∀ c, coming form g = some c → (∃ q j, c = .beat q j) ∨ (∃ q, c = .loop q) ∨ c = .actEnd := by
    intro c hc
    unfold coming at hc
    rw [h] at hc
    dsimp only at hc
    split at hc
    · obtain ⟨e', -, rfl⟩ := Option.map_eq_some_iff.1 hc
      exact successor_cases ..
    · cases hc
  cases hc : coming form g with
  | none => simp [comingBeat, hc]
  | some c =>
    obtain ⟨q, j, rfl⟩ | ⟨q, rfl⟩ | rfl := hcases c hc
    · rw [comingBeat_of_beat hc, map_entry_eq_some_iff]
      constructor
      · rintro ⟨he, rfl⟩
        exact .inl ⟨j, rfl, he⟩
      · rintro (⟨_, hsame, he⟩ | ⟨hsame, -⟩) <;> cases hsame
        exact ⟨he, rfl⟩
    · rw [comingBeat_loop_iff hc]
      constructor
      · rintro ⟨rfl, hentry⟩
        exact .inr ⟨rfl, hentry⟩
      · rintro (⟨_, hsame, -⟩ | ⟨hsame, hentry⟩) <;> cases hsame
        exact ⟨rfl, hentry⟩
    · simp [comingBeat, hc]

/-- The entry and position of the coming beat in COUNT and RUN, state by state (R40, R21, R36). -/
theorem comingBeat_iff {form : List FormEntry} {g : Engine} {e : FormEntry} {p : Pos} :
    ((g.st = .count ∨ g.st = .run) ∧ comingBeat form g = some (e, p)) ↔
      (g.st = .count ∧ ∃ c, g.prepared = some c ∧ entryAt form c.entry = some e ∧ p = c.pos) ∨
      (g.st = .run ∧ ∃ j, coming form g = some (.beat p j) ∧ entryAt form j = some e) ∨
      (g.st = .run ∧ coming form g = some (.loop p) ∧ ∃ i, g.entry = some i ∧ entryAt form i = some e) := by
  cases hst : g.st with
  | count => simp [comingBeat_count_iff hst]
  | run => simp [comingBeat_run_iff hst]
  | idle => simp
  | hold k => simp

/-- The early window is open exactly for the coming beat of COUNT or RUN, of a FOLLOW entry, near its due time (R50). -/
theorem inEarly_and_comingBeat_iff {d : Dev} {t : Time} {e : FormEntry} {p : Pos} :
    (d.inEarly t = true ∧ comingBeat d.data.form d.eng = some (e, p)) ↔
      (∃ n, d.eng.due = some n ∧ t ≤ n ∧ n - t ≤ d.earlyWidth) ∧ e.mode = .follow ∧
      ((d.eng.st = .count ∨ d.eng.st = .run) ∧ comingBeat d.data.form d.eng = some (e, p)) := by
  rw [inEarly_iff]
  constructor
  · rintro ⟨⟨hst, hdue, e', p', hb', hf⟩, hb⟩
    obtain ⟨rfl, rfl⟩ : e' = e ∧ p' = p := by simpa using hb'.symm.trans hb
    exact ⟨hdue, hf, hst, hb⟩
  · rintro ⟨hdue, hf, hst, hb⟩
    exact ⟨⟨hst, hdue, e, p, hb, hf⟩, hb⟩

/-! ### The window a tap lies in (R50) -/

/-- In IDLE and in a MARK hold no window is open (R50). -/
theorem openWindow_of_closed {d : Dev} (t : Time) (h : d.eng.st = .idle ∨ d.eng.st = .hold .mark) :
    d.openWindow t = none := by
  unfold Dev.openWindow; rcases h with h | h <;> simp [h]

/-- Elsewhere the late window comes before the early one (R50). -/
theorem openWindow_eq {d : Dev} (t : Time) (hi : d.eng.st ≠ .idle) (hm : d.eng.st ≠ .hold .mark) :
    d.openWindow t =
      if d.inLate (d.eng.notBefore t) then some ⟨d.eng.beatNo, d.eng.here⟩
      else if d.inEarly (d.eng.notBefore t) then
        (comingBeat d.data.form d.eng).map fun x => ⟨d.eng.beatNo + 1, x.2⟩
      else none := by
  unfold Dev.openWindow; split <;> simp_all

/-- A window is open only in COUNT, RUN and a POINT hold, and it is the late or the early one (R50). -/
theorem inWindow_of_openWindow {d : Dev} {t : Time} {b : BeatRef} (h : d.openWindow t = some b) :
    (d.eng.st ≠ .idle ∧ d.eng.st ≠ .hold .mark) ∧
      (d.inLate (d.eng.notBefore t) = true ∨ d.inEarly (d.eng.notBefore t) = true) := by
  by_cases hst : d.eng.st = .idle ∨ d.eng.st = .hold .mark
  · rw [openWindow_of_closed t hst] at h; cases h
  · rw [not_or] at hst
    refine ⟨hst, ?_⟩
    rw [openWindow_eq t hst.1 hst.2] at h
    by_cases hlate : d.inLate (d.eng.notBefore t) = true
    · exact .inl hlate
    · refine .inr (Decidable.byContradiction fun hearly => ?_)
      rw [if_neg hlate, if_neg hearly] at h
      cases h

/-- With L not matched a tap in either window is LATE or EARLY, a match (R25). -/
theorem classify_of_inWindow {d : Dev} {t : Time} (hclear : d.eng.matchedL = false)
    (h : d.inLate t = true ∨ d.inEarly t = true) : ∃ p, (d.classify t).2 = .matched p := by
  by_cases hl : d.inLate t = true
  · simp [Dev.classify, hl, hclear]
  · simp [Dev.classify, hl, h.resolve_left hl]

/-- A release of a hold by a tap is reported as a match, at the act end too (R32, R38, log 13). -/
theorem releaseByTap_matched (d : Dev) (t : Time) : ∃ p, (d.releaseByTap t).2 = .matched p := by
  unfold Dev.releaseByTap; dsimp only; split <;> exact ⟨_, rfl⟩

/-- With L not matched the holder's tap in an open window is a match (R25, R32). -/
theorem engineTap_of_openWindow {d : Dev} {t : Time} {b : BeatRef} (hclear : d.eng.matchedL = false)
    (h : d.openWindow t = some b) : ∃ p, (d.engineTap t).2 = .matched p := by
  obtain ⟨⟨hidle, hmark⟩, hwin⟩ := inWindow_of_openWindow h
  unfold Dev.engineTap
  split
  · contradiction
  · exact classify_of_inWindow hclear hwin
  · exact classify_of_inWindow hclear hwin
  · dsimp only
    split
    · exact ⟨_, rfl⟩
    · exact releaseByTap_matched d _
  · contradiction

/-! ### The first-tap race (R57) -/

/-- The windows do not depend on the holder or on the match record. -/
@[simp] theorem takeFocus_openWindow (d : Dev) (x : Src) (t : Time) :
    (d.takeFocus x none).openWindow t = d.openWindow t := rfl

@[simp] theorem engineTap_clock (d : Dev) (t : Time) : (d.engineTap t).1.clock = d.clock :=
  ((keeps_engineTap (by decide) (by decide) (by decide)).2 keeps_refl :
    Dev.Keeps [.eng, .notices, .handovers] d (d.engineTap t).1).clock

@[simp] theorem engineTap_arb (d : Dev) (t : Time) : (d.engineTap t).1.arb = d.arb :=
  ((keeps_engineTap (by decide) (by decide) (by decide)).2 keeps_refl :
    Dev.Keeps [.eng, .notices, .handovers] d (d.engineTap t).1).arb

/-- A match reported of an ACTIVE holder with no miss leaves the Arbiter as it is (R51). -/
theorem heard_matched_of_active {d : Dev} {y : Src} (x : Src) (p : Pos) (hf : d.arb.focus = some ⟨y, .active⟩)
    (hm : d.arb.misses = 0) : d.heard x (.matched p) = d := by
  have harb : { d.arb with misses := 0 } = d.arb := by rw [← hm]
  simp only [Dev.heard, hf]
  rw [← hf]
  exact congrArg d.setArb harb

/-- A tap that takes focus and is a match: the tap's beat with its notices, then the FOCUS notice (R49, R57). -/
theorem tapTakes_of_matched {d : Dev} {x : Src} {t : Time} {prev : Option (Time × BeatRef)} {p : Pos}
    (cause : FocusCause) (h : ((d.takeFocus x prev).engineTap t).2 = .matched p) :
    d.tapTakes x t cause prev =
      (((d.takeFocus x prev).engineTap t).1.raise
        (.focus cause (some x) d.arb.holder (some .active) d.arb.pin d.clock), .take cause) := by
  have hheard : ((d.takeFocus x prev).engineTap t).1.heard x ((d.takeFocus x prev).engineTap t).2 =
      ((d.takeFocus x prev).engineTap t).1 := by
    rw [h]; exact heard_matched_of_active (y := x) x p (by simp) (by simp)
  simp only [Dev.tapTakes, Dev.holderTap, hheard, Dev.raiseFocus]
  simp [Arbiter.holder, Arbiter.status]

/-- With no holder a tap is one of the race (R50). -/
theorem routeTap_of_no_holder {d : Dev} (x : Src) (t : Time) (h : d.arb.focus = none) :
    d.routeTap x t = (d.raceTap x t).1.raise (.tap x (d.raceTap x t).2 t) := by
  simp only [Dev.routeTap, h]

/-- In an open window the tap takes focus (R57). -/
theorem raceTap_of_openWindow {d : Dev} {t : Time} {b : BeatRef} (x : Src) (h : d.openWindow t = some b) :
    d.raceTap x t = d.tapTakes x t .race none := by
  simp [Dev.raceTap, h]

/-- In COUNT and RUN outside every window of a FOLLOW entry the tap is a stray (R57). -/
theorem raceTap_of_stray {d : Dev} {t : Time} (x : Src) (h : d.openWindow t = none)
    (hst : d.eng.st = .count ∨ d.eng.st = .run) (hf : d.followNow = true) :
    d.raceTap x t = (d.updSrc x SrcRun.stray, .stray) := by
  rcases hst with hst | hst <;> simp [Dev.raceTap, h, hst, hf]

/-- In IDLE, in a LEAD entry, and in a hold with the pin set the tap does nothing (R57). -/
theorem raceTap_of_ignored {d : Dev} {t : Time} (x : Src) (h : d.openWindow t = none)
    (hst : d.eng.st = .idle ∨ ((d.eng.st = .count ∨ d.eng.st = .run) ∧ ¬ d.followNow = true) ∨
      ((∃ k, d.eng.st = .hold k) ∧ d.arb.pin = true)) :
    d.raceTap x t = (d, .ignored) := by
  rcases hst with hst | ⟨hst | hst, hf⟩ | ⟨⟨k, hst⟩, hp⟩
  · simp [Dev.raceTap, h, hst]
  · simp [Dev.raceTap, h, hst, hf]
  · simp [Dev.raceTap, h, hst, hf]
  · simp [Dev.raceTap, h, hst, hp]

/-! ### The TAP request (R48) -/

theorem exec_tap (tag : Nat) {t : Time} (s : State) (h : t < Config.clockSpan) :
    exec (.tap tag t) s =
      .next (s.replied tag (Dev.portTap t (s.dev.takeRequest (.tap tag t))).2
        (Dev.portTap t (s.dev.takeRequest (.tap tag t))).1) :=
  request_eq s tag (Dev.portTap t) (decide_eq_true h)

/-- A TAP outside PORTTAP's debounce time is answered ACCEPTED (R48). -/
theorem portTap_of_accepts {d : Dev} {t : Time}
    (h : accepts d.arb.srcs.port.lastTap d.data.srcs.port.debounce t = true) :
    Dev.portTap t d =
      ((d.updSrc .port fun r => { r with taps := min 65535 (r.taps + 1), lastTap := some t }).routeTap .port t,
        .ok [⟨"", [.word "ACCEPTED"]⟩, ⟨"", [.num t]⟩]) := by
  rw [← frontEnd_of_accepts (x := .port) h]
  simp [Dev.portTap, PerSrc.get, h, fw, bare]

/-- A TAP inside PORTTAP's debounce time is answered BOUNCE (R48). -/
theorem portTap_of_not_accepts {d : Dev} {t : Time}
    (h : ¬ accepts d.arb.srcs.port.lastTap d.data.srcs.port.debounce t = true) :
    Dev.portTap t d =
      (d.updSrc .port fun r => { r with bounces := min 65535 (r.bounces + 1) },
        .ok [⟨"", [.word "BOUNCE"]⟩, ⟨"", [.num t]⟩]) := by
  rw [← frontEnd_of_not_accepts (x := .port) h]
  simp [Dev.portTap, PerSrc.get, h, fw, bare]

/-- Settles O22: the request by the debounce test; the windows by the late one before the early one, whose beat is the
coming one; the race by the branch a tap without a holder takes, a match when it takes focus. -/
theorem tapRequestAndFirstTap : Obligations.TapRequestAndFirstTap := by
  unfold Obligations.TapRequestAndFirstTap
  refine ⟨?request, ?windows, ?race⟩
  case request =>
    intro tag t s ht i d run outside
    have hout : accepts d.arb.srcs.port.lastTap d.data.srcs.port.debounce t = true ↔ outside := by
      simp only [d, takeRequest_arb, takeRequest_data]; exact accepts_iff _ _ _
    rw [← hout, exec_tap tag s ht]
    refine ⟨fun h => ?_, fun h => ?_⟩
    · rw [portTap_of_accepts h]; simp [Dev.updSrc, PerSrc.get, PerSrc.set, d, i, run]
    · rw [portTap_of_not_accepts h]; simp [Dev.updSrc, PerSrc.get, PerSrc.set, d, i, run]
  case windows =>
    intro d t0 g form t late early
    refine ⟨openWindow_of_closed t0, fun hidle hmark => ?_⟩
    have hlate : d.inLate (d.eng.notBefore t0) = true ↔ late := inLate_iff hmark
    have hearly : ∀ e p, (d.inEarly (d.eng.notBefore t0) = true ∧ comingBeat form g = some (e, p)) ↔ early e p :=
      fun e p => by rw [inEarly_and_comingBeat_iff, comingBeat_iff]; rfl
    rw [openWindow_eq t0 hidle hmark, ← hlate]
    refine ⟨fun h => by rw [if_pos h]; rfl, fun h => ?_⟩
    rw [if_neg h]
    refine ⟨fun e p he => ?_, fun hno => if_neg fun he => ?_⟩
    · obtain ⟨hin, hbeat⟩ := (hearly e p).2 he
      rw [if_pos hin, hbeat]; rfl
    · obtain ⟨-, -, e, p, hbeat, -⟩ := inEarly_iff.1 he
      exact hno e p ((hearly e p).1 ⟨he, hbeat⟩)
  case race =>
    intro x t d hfocus r follow
    rw [routeTap_of_no_holder x t hfocus]
    refine ⟨fun h hst hf => ?_, fun h hst => ?_, fun b h => ?_⟩
    · have hmark : d.eng.st ≠ .hold .mark := fun hm => by simp [hm] at hst
      rw [raceTap_of_stray x h hst ((followNow_iff hmark).2 hf)]; rfl
    · rw [raceTap_of_ignored x h]
      refine hst.imp_right (Or.imp_left fun ⟨hst, hf⟩ => ⟨hst, fun hn => hf ?_⟩)
      exact (followNow_iff (fun hm => by simp [hm] at hst)).1 hn
    · intro given taken
      obtain ⟨p, hp⟩ := engineTap_of_openWindow (d := d.takeFocus x none) rfl ((takeFocus_openWindow d x t).trans h)
      have hroute : (d.raceTap x t).1.raise (.tap x (d.raceTap x t).2 t) = taken.1.raiseAll
          [.focus .race (some x) none (some .active) d.arb.pin d.clock, .tap x (.take .race) t] := by
        rw [raceTap_of_openWindow x h, tapTakes_of_matched .race hp, Arbiter.holder, hfocus]; rfl
      refine ⟨⟨p, hp⟩, engineTap_arb given t, hroute, _, rfl, ?_, ?_⟩
      · simp
      · rw [hroute, raiseAll_arb]; exact engineTap_arb given t

end Sys2Proof.Machine
end

section
/-! SUPPORT. Records of a table read after a write, the click queues one operation at a time, and the statement on a
beat mark at the lanes (spec 04). -/

namespace Sys2Proof.Machine

/-! ### One record of a table -/

theorem vector_set_get {α : Type} {n : Nat} (v : Vector α n) (i j : Fin n) (x : α) :
    (v.set i x)[j] = if i = j then x else v[j] := by
  simp [Vector.getElem_set, Fin.ext_iff]

theorem vector_set_get_same {α : Type} {n : Nat} (v : Vector α n) (i : Fin n) (x : α) :
    (v.set i x)[i] = x := by simp

theorem vector_set_get_other {α : Type} {n : Nat} (v : Vector α n) {i j : Fin n} (x : α) (h : j ≠ i) :
    (v.set i x)[j] = v[j] := by rw [vector_set_get, if_neg (Ne.symm h)]

theorem mapAll_get {α β : Type} {n : Nat} (f : α → β) (v : Vector α n) (i : Fin n) :
    (mapAll f v)[i] = f v[i] := by simp [mapAll]

/-! ### A click put in its place (R70) -/

theorem insertClick_perm (c : Click) (q : List Click) : (insertClick c q).Perm (c :: q) := by
  induction q with
  | nil => exact .refl _
  | cons x xs ih =>
    rw [insertClick]
    split
    · exact .refl _
    · exact (ih.cons x).trans (.swap c x xs)

theorem insertClick_sorted (c : Click) {q : List Click} (h : q.Pairwise fun a b => a.due ≤ b.due) :
    (insertClick c q).Pairwise fun a b => a.due ≤ b.due := by
  induction q with
  | nil => exact List.pairwise_singleton ..
  | cons x xs ih =>
    obtain ⟨hx, hxs⟩ := List.pairwise_cons.1 h
    rw [insertClick]
    split
    · next hlt =>
      exact List.pairwise_cons.2
        ⟨List.forall_mem_cons.2 ⟨Nat.le_of_lt hlt, fun y hy => Nat.le_trans (Nat.le_of_lt hlt) (hx y hy)⟩, h⟩
    · next hle =>
      refine List.pairwise_cons.2 ⟨fun y hy => ?_, ih hxs⟩
      rcases List.mem_cons.1 ((insertClick_perm c xs).mem_iff.1 hy) with rfl | hy
      · exact Nat.le_of_not_lt hle
      · exact hx y hy

/-- In a queue in order a click stands behind the clicks of its own due time (R70). -/
theorem insertClick_filter_due (c : Click) (t : Time) {q : List Click} (h : q.Pairwise fun a b => a.due ≤ b.due) :
    (insertClick c q).filter (fun x => x.due == t) = (q ++ [c]).filter fun x => x.due == t := by
  induction q with
  | nil => rfl
  | cons x xs ih =>
    obtain ⟨hx, hxs⟩ := List.pairwise_cons.1 h
    rw [insertClick]
    split
    · next hlt =>
      by_cases hc : c.due = t
      · have hlater : (x :: xs).filter (fun y => y.due == t) = [] := by
          refine List.filter_eq_nil_iff.2 fun y hy => ?_
          have hxy : x.due ≤ y.due := by
            rcases List.mem_cons.1 hy with rfl | hy
            · exact Nat.le_refl _
            · exact hx y hy
          rw [beq_iff_eq, ← hc]
          exact Nat.ne_of_gt (Nat.lt_of_lt_of_le hlt hxy)
        rw [List.filter_append, hlater, List.filter_cons, hlater]
        simp [hc]
      · simp [List.filter_cons, hc]
    · rw [List.filter_cons, ih hxs, List.cons_append, List.filter_cons]

/-! ### Clicks queued while there is room (R70) -/

/-- Pending clicks within a lane's capacity and in order of due time: `LaneRun.queueOk` of a queue alone (R70, R74). -/
def ClicksOk (q : List Click) : Prop := q.length ≤ Config.clickCapacity ∧ q.Pairwise fun a b => a.due ≤ b.due

theorem queueOk_iff (r : LaneRun) : r.queueOk ↔ ClicksOk r.queue := Iff.rfl

/-- A click queued, or dropped when there is no room, leaves the queue in order and within its capacity (R70, R74). -/
theorem queueClick_ok (c : Click) {q : List Click} (h : ClicksOk q) :
    ClicksOk (queueClick q c) := by
  unfold queueClick
  split
  · next hroom => exact ⟨by rw [(insertClick_perm c q).length_eq]; exact hroom, insertClick_sorted c h.2⟩
  · exact h

theorem foldl_queueClick_ok (cs : List Click) {q : List Click} (h : ClicksOk q) :
    ClicksOk (cs.foldl queueClick q) := by
  induction cs generalizing q with
  | nil => exact h
  | cons c cs ih => exact ih (queueClick_ok c h)

/-- Of the clicks queued in turn those that find room stand, each due time's in the order they were queued (R70). -/
theorem foldl_queueClick_filter_due (cs : List Click) (t : Time) {q : List Click} (h : ClicksOk q) :
    (cs.foldl queueClick q).filter (fun x => x.due == t) =
      (q ++ cs.take (Config.clickCapacity - q.length)).filter fun x => x.due == t := by
  induction cs generalizing q with
  | nil => simp
  | cons c cs ih =>
    rw [List.foldl_cons, ih (queueClick_ok c h)]
    by_cases hroom : q.length < Config.clickCapacity
    · have hleft : Config.clickCapacity - q.length = (Config.clickCapacity - (q.length + 1)) + 1 := by omega
      rw [queueClick, if_pos hroom, (insertClick_perm c q).length_eq, List.length_cons, hleft, List.take_succ_cons,
        List.filter_append, insertClick_filter_due c t h.2, ← List.filter_append, List.append_assoc,
        List.singleton_append]
    · have hfull : Config.clickCapacity - q.length = 0 := by omega
      rw [queueClick, if_neg hroom, hfull, List.take_zero, List.take_zero]

/-! ### The clicks of a beat mark in a lane (R71 to R73) -/

theorem sounding_iff (s : LaneSet) (r : LaneRun) : sounding s r = true ↔ s.mute = .opened ∧ r.cueMute = .opened := by
  simp [sounding]

/-- The tone and level of the main click: ACCENT on an accented DOWNBEAT or COUNT_DOWN, else the level less 2 (R72). -/
theorem mainTone_eq (k : BeatKind) (accent : Bool) (v : Nat) :
    mainTone k accent v =
      let loud : Bool := accent && (k == .downbeat || k == .countDown)
      (if loud then .accent else if k = .downbeat ∨ k = .beat then .beat else .count, if loud then v else v - 2) := by
  cases k <;> cases accent <;> rfl

theorem prune_ok (t : Time) {r : LaneRun} (h : r.queueOk) : ClicksOk (prune t r.queue) :=
  ⟨Nat.le_trans (List.length_filter_le ..) h.1, h.2.filter _⟩

/-- A muted lane is pruned and queues nothing (R71, R73). -/
theorem laneBeat_queue_of_not_sounding {m : BeatMark} {s : LaneSet} {oc : Nat} {r : LaneRun}
    (h : ¬ sounding s r = true) : (laneBeat m s oc r).queue = prune m.time r.queue := if_neg h

/-- A sounding lane is pruned and queues the clicks of the mark (R71, R73). -/
theorem laneBeat_queue_of_sounding {m : BeatMark} {s : LaneSet} {oc : Nat} {r : LaneRun} (h : sounding s r = true) :
    (laneBeat m s oc r).queue = (clicksOf m s (subdivision s r) oc).foldl queueClick (prune m.time r.queue) :=
  if_pos h

theorem laneBeat_queueOk (m : BeatMark) (s : LaneSet) (oc : Nat) {r : LaneRun} (h : r.queueOk) :
    (laneBeat m s oc r).queueOk := by
  rw [queueOk_iff]
  by_cases hs : sounding s r = true
  · rw [laneBeat_queue_of_sounding hs]; exact foldl_queueClick_ok _ (prune_ok m.time h)
  · rw [laneBeat_queue_of_not_sounding hs]; exact prune_ok m.time h

theorem playing_iff (st : ShowState) : ShowState.playing st = true ↔ st = .countIn ∨ st = .running := by
  cases st <;> simp [ShowState.playing]

theorem exec_beatMarkClick (m : BeatMark) (s : State) :
    exec (.beatMarkClick m) s = .next (s.ended ((s.dev.take (.beatMarkClick m)).clickBeat m)) := rfl

/-- Outside COUNT_IN and RUNNING a beat mark is discarded (R71). -/
theorem clickBeat_of_not_playing {d : Dev} (m : BeatMark) (h : ¬ ShowState.playing d.ctl.state = true) :
    d.clickBeat m = d := if_neg h

/-- In COUNT_IN and RUNNING every lane handles the beat mark with its own settings and its room's offset (R71). -/
theorem clickBeat_lane {d : Dev} (m : BeatMark) (h : ShowState.playing d.ctl.state = true) (l : Fin 8) :
    (d.clickBeat m).lanes[l] = laneBeat m d.data.lanes[l] d.rooms[d.data.lanes[l].room].oc d.lanes[l] := by
  rw [Dev.clickBeat, if_pos h]; simp [Dev.offset]

theorem clickBeat_handovers (d : Dev) (m : BeatMark) : (d.clickBeat m).handovers = d.handovers :=
  ((keeps_clickBeat (by decide)).2 keeps_refl : Dev.Keeps [.lanes] d (d.clickBeat m)).handovers

theorem keeps_take_clickBeat (d : Dev) (m : BeatMark) :
    Dev.Keeps [.lanes, .handovers] d ((d.take (.beatMarkClick m)).clickBeat m) := by simp

/-- Settles O32: lane by lane, the pruned queue and the clicks queued into it one after another. -/
theorem beatMarkClickPrunesAndQueues : Obligations.BeatMarkClickPrunesAndQueues := by
  unfold Obligations.BeatMarkClickPrunesAndQueues
  intro m s playing
  have hplay : ShowState.playing (s.dev.take (.beatMarkClick m)).ctl.state = true ↔ playing := playing_iff _
  rw [exec_beatMarkClick]
  refine ⟨fun h => ?_, fun h => ⟨_, rfl, keeps_take_clickBeat s.dev m, clickBeat_handovers _ m, fun l => ?_⟩⟩
  · rw [clickBeat_of_not_playing m (mt hplay.1 h)]
  · intro set run oc n loud tone main sub kept new after
    have hafter : after = laneBeat m set oc run := clickBeat_lane m (hplay.2 h) l
    have hnew : clicksOf m set (subdivision set run) oc = new := by
      simp only [clicksOf, mainClick, mainTone_eq]; rfl
    rw [hafter]
    refine ⟨rfl, rfl, rfl, fun hmute => ?_, fun hmute hcue hok t => ?_, laneBeat_queueOk m set oc⟩
    · refine laneBeat_queue_of_not_sounding fun hs => ?_
      obtain ⟨hopen, hcue⟩ := (sounding_iff set run).1 hs
      rcases hmute with hmute | hmute
      · rw [hopen] at hmute; cases hmute
      · rw [hcue] at hmute; cases hmute
    · rw [laneBeat_queue_of_sounding ((sounding_iff set run).2 ⟨hmute, hcue⟩), hnew]
      exact foldl_queueClick_filter_due new t (prune_ok m.time hok)

end Sys2Proof.Machine
end

section
/-! SUPPORT. The Room Table's alignment, and the statement on the alignment of a room (spec 04). -/

namespace Sys2Proof.Machine

/-! ### The fewest frames (R64) -/

/-- A count of frames suffices exactly when it covers the difference (R64). -/
theorem ceilDiv_le_iff_covers {a f n : Nat} (hf : 0 < f) : ceilDiv a f ≤ n ↔ a ≤ n * f := by
  have hsucc : (n + 1) * f = n * f + f := Nat.succ_mul n f
  rw [ceilDiv, ← Nat.lt_succ_iff, Nat.div_lt_iff_lt_mul hf, hsucc]
  omega

/-- The fewest frames: they suffice, and one fewer does not (R64). -/
theorem ceilDiv_eq_of_fewest {a f n : Nat} (hf : 0 < f) (h : a ≤ n * f) (h' : (n - 1) * f < a) : ceilDiv a f = n := by
  refine Nat.le_antisymm ((ceilDiv_le_iff_covers hf).2 h) (Nat.le_of_not_lt fun hlt => ?_)
  exact absurd ((ceilDiv_le_iff_covers hf).1 (Nat.le_sub_one_of_lt hlt)) (Nat.not_le.2 h')

/-- The fewest frames exceed the difference by less than one frame (R64). -/
theorem ceilDiv_mul_lt {a f : Nat} (ha : 0 < a) : ceilDiv a f * f < a + f := by
  rw [ceilDiv]
  have := Nat.div_mul_le_self (a + f - 1) f
  omega

/-- They match it exactly when it is a multiple of a frame (R64). -/
theorem ceilDiv_mul_eq_iff {a f : Nat} (hf : 0 < f) : ceilDiv a f * f = a ↔ a % f = 0 := by
  refine ⟨fun h => h ▸ Nat.mul_mod_left .., fun h => ?_⟩
  have hmul : a / f * f = a := Nat.div_mul_cancel (Nat.dvd_of_mod_eq_zero h)
  have hle : ceilDiv a f ≤ a / f := (ceilDiv_le_iff_covers hf).2 (Nat.le_of_eq hmul.symm)
  refine Nat.le_antisymm ?_ ((ceilDiv_le_iff_covers hf).1 (Nat.le_refl _))
  calc ceilDiv a f * f ≤ a / f * f := Nat.mul_le_mul_right f hle
    _ = a := hmul

theorem frame_pos (std : Standard) : 0 < std.frame := by cases std <;> decide

theorem frame_le (std : Standard) : std.frame ≤ Config.offsetTop := by cases std <;> decide

/-! ### The five cases of the alignment (R64) -/

theorem align_of_unbound {s : RoomSet} (f : Nat) (h : s.out = none) : align s f = ⟨0, none, 0⟩ := by
  simp only [align, h]

/-- The click is early by no more than the offset can hold (R64). -/
theorem align_of_offset {s : RoomSet} (f : Nat) (hb : s.out ≠ none) (h : s.cr ≤ s.vr)
    (h' : s.vr - s.cr ≤ Config.offsetTop) : align s f = ⟨s.vr - s.cr, some 0, 0⟩ := by
  obtain ⟨o, ho⟩ := Option.ne_none_iff_exists'.1 hb
  simp only [align, ho, if_pos h, if_pos h']

/-- The click is early by more than the offset can hold (R64). -/
theorem align_of_offset_short {s : RoomSet} (f : Nat) (hb : s.out ≠ none) (h : s.cr ≤ s.vr)
    (h' : Config.offsetTop < s.vr - s.cr) :
    align s f = ⟨Config.offsetTop, some 0, s.vr - s.cr - Config.offsetTop⟩ := by
  obtain ⟨o, ho⟩ := Option.ne_none_iff_exists'.1 hb
  simp only [align, ho, if_pos h, if_neg (Nat.not_le.2 h')]

/-- The picture is early by no more than the frames can hold (R64). -/
theorem align_of_frames {s : RoomSet} {f : Nat} (hb : s.out ≠ none) (h : s.vr < s.cr)
    (h' : ceilDiv (s.cr - s.vr) f ≤ Config.delayTop) :
    align s f =
      ⟨s.vr + ceilDiv (s.cr - s.vr) f * f - s.cr, some (ceilDiv (s.cr - s.vr) f), 0⟩ := by
  obtain ⟨o, ho⟩ := Option.ne_none_iff_exists'.1 hb
  simp only [align, ho, if_neg (Nat.not_le.2 h), if_pos h']

/-- The picture is early by more than the frames can hold (R64). -/
theorem align_of_frames_short {s : RoomSet} {f : Nat} (hb : s.out ≠ none) (h : s.vr < s.cr)
    (h' : Config.delayTop < ceilDiv (s.cr - s.vr) f) :
    align s f = ⟨0, some Config.delayTop, s.cr - s.vr - Config.delayTop * f⟩ := by
  obtain ⟨o, ho⟩ := Option.ne_none_iff_exists'.1 hb
  simp only [align, ho, if_neg (Nat.not_le.2 h), if_neg (Nat.not_le.2 h')]

/-- More than eight frames are needed exactly when eight do not cover the difference (R64). -/
theorem delayTop_lt_ceilDiv_iff {a f : Nat} (hf : 0 < f) : Config.delayTop < ceilDiv a f ↔ 8 * f < a := by
  rw [← Nat.not_le, ceilDiv_le_iff_covers hf, Nat.not_le]; rfl

/-- A bound room's click and picture meet, but for the short amount, on the click's side or the video's (R64). -/
theorem align_meets {s : RoomSet} {f : Nat} (hf : 0 < f) (hb : s.out ≠ none) :
    ∃ n, (align s f).dv = some n ∧ n ≤ Config.delayTop ∧
      (s.cr ≤ s.vr → (align s f).oc + s.cr + (align s f).short = s.vr + n * f) ∧
      (s.vr < s.cr → (align s f).oc + s.cr = s.vr + n * f + (align s f).short) := by
  rcases Nat.lt_or_ge s.vr s.cr with h | h
  · rcases Nat.lt_or_ge Config.delayTop (ceilDiv (s.cr - s.vr) f) with hn | hn
    · have hmore := (delayTop_lt_ceilDiv_iff hf).1 hn
      rw [align_of_frames_short hb h hn]
      exact ⟨_, rfl, Nat.le_refl _, by omega, fun _ => by simp only [Config.delayTop]; omega⟩
    · have hcovers := (ceilDiv_le_iff_covers hf).1 (Nat.le_refl (ceilDiv (s.cr - s.vr) f))
      rw [align_of_frames hb h hn]
      exact ⟨_, rfl, hn, by omega, fun _ => by simp only; omega⟩
  · rcases Nat.lt_or_ge Config.offsetTop (s.vr - s.cr) with hd | hd
    · rw [align_of_offset_short f hb h hd]
      exact ⟨0, rfl, Nat.zero_le _, fun _ => by simp only; omega, by omega⟩
    · rw [align_of_offset f hb h hd]
      exact ⟨0, rfl, Nat.zero_le _, fun _ => by simp only; omega, by omega⟩

/-- A click offset is at most 100 000 (R64). -/
theorem align_oc_le {s : RoomSet} {f : Nat} (hf : 0 < f) (hle : f ≤ Config.offsetTop) :
    (align s f).oc ≤ Config.offsetTop := by
  by_cases hb : s.out = none
  · rw [align_of_unbound f hb]; exact Nat.zero_le _
  · rcases Nat.lt_or_ge s.vr s.cr with h | h
    · rcases Nat.lt_or_ge Config.delayTop (ceilDiv (s.cr - s.vr) f) with hn | hn
      · rw [align_of_frames_short hb h hn]; exact Nat.zero_le _
      · have hfew := ceilDiv_mul_lt (f := f) (Nat.sub_pos_of_lt h)
        rw [align_of_frames hb h hn]
        simp only
        omega
    · rcases Nat.lt_or_ge Config.offsetTop (s.vr - s.cr) with hd | hd
      · exact Nat.le_of_eq (congrArg RoomRun.oc (align_of_offset_short f hb h hd))
      · rw [align_of_offset f hb h hd]; exact hd

/-- With the fewest frames, at most eight, the click waits for the rest of the last frame (R64). -/
theorem align_of_fewest {s : RoomSet} {f n : Nat} (hf : 0 < f) (hb : s.out ≠ none) (h : s.vr < s.cr)
    (hn : n ≤ Config.delayTop) (hcovers : s.cr - s.vr ≤ n * f) (hfewest : (n - 1) * f < s.cr - s.vr) :
    align s f = ⟨s.vr + n * f - s.cr, some n, 0⟩ ∧ s.vr + n * f - s.cr < f ∧
      (s.vr + n * f - s.cr = 0 ↔ (s.cr - s.vr) % f = 0) := by
  obtain rfl := ceilDiv_eq_of_fewest hf hcovers hfewest
  have hfew := ceilDiv_mul_lt (f := f) (Nat.sub_pos_of_lt h)
  refine ⟨align_of_frames hb h hn, by omega, ?_⟩
  rw [← ceilDiv_mul_eq_iff hf]
  omega

/-! ### A room realigned (R65) -/

/-- The computation writes the room and tells of a short amount that differs from the one held (R64, R65). -/
theorem realign_eq (d : Dev) (r : Fin 4) :
    d.realign r = (d.setRooms (d.rooms.set r (align d.data.rooms[r] d.data.std.frame))).raiseAll
      (if (align d.data.rooms[r] d.data.std.frame).short = d.rooms[r].short then []
        else [.align r d.data.rooms[r] (align d.data.rooms[r] d.data.std.frame)]) := by
  unfold Dev.realign Dev.alignRoom; dsimp only; split <;> rfl

@[simp] theorem raiseAll_rooms (d : Dev) (ns : List Notice) : (d.raiseAll ns).rooms = d.rooms :=
  ((keeps_raiseAll (by decide)).2 keeps_refl : Dev.Keeps [.notices] d (d.raiseAll ns)).rooms

theorem realign_rooms (d : Dev) (r : Fin 4) :
    (d.realign r).rooms = d.rooms.set r (align d.data.rooms[r] d.data.std.frame) := by
  rw [realign_eq, raiseAll_rooms, setRooms_rooms]

/-- Settles O29: the room is what `align` gives, read case by case. -/
theorem alignmentOfARoom : Obligations.AlignmentOfARoom := by
  unfold Obligations.AlignmentOfARoom
  intro d k set f room
  have hf : 0 < f := frame_pos _
  have hroom : room = align set f := by
    simp only [room, realign_rooms, vector_set_get_same]; rfl
  rw [hroom]
  refine ⟨fun h => congrArg Standard.frame h, fun h => congrArg Standard.frame h, align_of_unbound f, fun hb => ?_,
    align_oc_le hf (frame_le _)⟩
  refine ⟨align_of_offset f hb, align_of_offset_short f hb, fun n h hn hcovers hfewest => ?_, fun h hmore => ?_, ?_⟩
  · obtain ⟨heq, hlt, hzero⟩ := align_of_fewest hf hb h hn hcovers hfewest
    rw [heq]
    exact ⟨rfl, hlt, hzero⟩
  · exact align_of_frames_short hb h ((delayTop_lt_ceilDiv_iff hf).2 hmore)
  · obtain ⟨n, hdv, hn, hclick, hvideo⟩ := align_meets hf hb
    refine ⟨n, hdv, hn, fun hshort => ?_, hclick, hvideo⟩
    rcases Nat.lt_or_ge set.vr set.cr with h | h
    · rw [hvideo h, hshort, Nat.add_zero]
    · rw [← hclick h, hshort, Nat.add_zero]

end Sys2Proof.Machine
end

section
/-! SUPPORT. The requests on rooms, lanes and stations, and the hand-overs that the lanes and the Video Unit take; and
the statements on them (spec 04, spec 07, spec 08). -/

namespace Sys2Proof.Machine

/-! ### The fields of a ROOM.SET line (R62, R66) -/

theorem roomFields_any_eq_false_iff (f : RoomFields) : RoomFields.any f = false ↔ f = ⟨none, none, none, none⟩ := by
  obtain ⟨cr, vr, out, name⟩ := f
  simp [RoomFields.any, and_assoc]

theorem mem_allRooms (r : Fin 4) : r ∈ allRooms := by
  revert r; decide

theorem boundElsewhere_iff (rooms : Vector RoomSet 4) (r : Fin 4) (b : Option BindField) :
    boundElsewhere rooms r b = true ↔ ∃ o q, b = some (.out o) ∧ q ≠ r ∧ rooms[q].out = some o := by
  rcases b with _ | _ | _ <;> simp [boundElsewhere, mem_allRooms]

/-- A binding left out stands, a given output is bound, and NONE unbinds (R66). -/
theorem roomOfFields_out (old : RoomSet) (f : RoomFields) :
    (f.out = none → (roomOfFields old f).out = old.out) ∧
    (∀ o, f.out = some (.out o) → (roomOfFields old f).out = some o) ∧
    (f.out = some .none → (roomOfFields old f).out = none) := by
  refine ⟨fun h => ?_, fun o h => ?_, fun h => ?_⟩ <;> simp only [roomOfFields, h]

/-- The alignment is run when the delays or the binding change (R63). -/
theorem runsAlignment_iff (old new : RoomSet) :
    runsAlignment old new = true ↔ new.cr ≠ old.cr ∨ new.vr ≠ old.vr ∨ new.out ≠ old.out := by
  simp only [runsAlignment, Bool.or_eq_true, bne_iff_ne, or_assoc]
  rw [ne_comm (a := old.cr), ne_comm (a := old.vr), ne_comm (a := old.out)]

/-- An output the room leaves takes the delay the room held, and no other output changes (R67). -/
theorem releaseOut_get (outs : Vector OutSet 6) (old new : RoomSet) (dv : Option Nat) (o : Fin 6) :
    (releaseOut outs old new dv)[o] =
      if old.out = some o ∧ new.out ≠ some o then { outs[o] with portDelay := dv.getD outs[o].portDelay }
      else outs[o] := by
  unfold releaseOut
  split
  · next p hp =>
    by_cases hpo : p = o
    · subst hpo
      by_cases hnew : new.out = some p
      · simp [hnew]
      · rw [if_neg hnew, vector_set_get_same, if_pos ⟨hp, hnew⟩]
    · have hold : ¬ (old.out = some o ∧ new.out ≠ some o) := fun h => hpo (Option.some.inj (hp.symm.trans h.1))
      rw [if_neg hold]
      split
      · rfl
      · exact vector_set_get_other _ _ (Ne.symm hpo)
  · next hp => simp [hp]

/-! ### A room written (R63, R66, R67) -/

/-- A room's derived values after its settings are written: computed anew when the alignment runs (R63, R64). -/
def Dev.roomAfter (d : Dev) (r : Fin 4) (new : RoomSet) : RoomRun :=
  if runsAlignment d.data.rooms[r] new then align new d.data.std.frame else d.rooms[r]

/-- The part as a ROOM.SET leaves it, before the notice (R63, R66, R67). -/
def Dev.roomWritten (d : Dev) (r : Fin 4) (new : RoomSet) : Dev :=
  (d.setData { d.data with
    rooms := d.data.rooms.set r new
    outs := releaseOut d.data.outs d.data.rooms[r] new d.rooms[r].dv }).setRooms (d.rooms.set r (d.roomAfter r new))

/-- A written room tells of a short amount that differs from the one held (R65). -/
theorem writeRoom_eq (d : Dev) (r : Fin 4) (new : RoomSet) :
    d.writeRoom r new = (d.roomWritten r new).raiseAll
      (if (d.roomAfter r new).short = d.rooms[r].short then [] else [.align r new (d.roomAfter r new)]) := by
  unfold Dev.writeRoom Dev.roomWritten Dev.roomAfter
  by_cases h : runsAlignment d.data.rooms[r] new = true
  · simp only [if_pos h, realign_eq, setData_data, setData_rooms, vector_set_get_same]
  · simp only [if_neg h]
    have hkept : d.rooms.set r d.rooms[r] = d.rooms := Vector.set_getElem_self ..
    rw [hkept]; rfl

@[simp] theorem raiseAll_data (d : Dev) (ns : List Notice) : (d.raiseAll ns).data = d.data :=
  ((keeps_raiseAll (by decide)).2 keeps_refl : Dev.Keeps [.notices] d (d.raiseAll ns)).data

theorem writeRoom_data (d : Dev) (r : Fin 4) (new : RoomSet) : (d.writeRoom r new).data =
    { d.data with
      rooms := d.data.rooms.set r new
      outs := releaseOut d.data.outs d.data.rooms[r] new d.rooms[r].dv } := by
  rw [writeRoom_eq, raiseAll_data]; rfl

theorem writeRoom_rooms (d : Dev) (r : Fin 4) (new : RoomSet) :
    (d.writeRoom r new).rooms = d.rooms.set r (d.roomAfter r new) := by
  rw [writeRoom_eq, raiseAll_rooms]; rfl

theorem writeRoom_room_same (d : Dev) (r : Fin 4) (new : RoomSet) :
    (d.writeRoom r new).data.rooms[r] = new ∧ (d.writeRoom r new).rooms[r] = d.roomAfter r new := by
  simp only [writeRoom_data, writeRoom_rooms, vector_set_get_same, and_self]

theorem writeRoom_room_other (d : Dev) {r q : Fin 4} (new : RoomSet) (h : q ≠ r) :
    (d.writeRoom r new).data.rooms[q] = d.data.rooms[q] ∧ (d.writeRoom r new).rooms[q] = d.rooms[q] := by
  simp only [writeRoom_data, writeRoom_rooms, vector_set_get_other _ _ h, and_self]

/-! ### ROOM.SET (R66) -/

theorem exec_roomSet (tag : Nat) (r : Fin 4) (f : RoomFields) (s : State)
    (h : (Instr.roomSet tag r f).rangeOk = true) :
    exec (.roomSet tag r f) s =
      .next (s.replied tag (Dev.roomSet r f (s.dev.takeRequest (.roomSet tag r f))).2
        (Dev.roomSet r f (s.dev.takeRequest (.roomSet tag r f))).1) :=
  request_eq s tag (Dev.roomSet r f) h

/-- An output another room has is refused (R66). -/
theorem roomSet_of_boundElsewhere {d : Dev} {r : Fin 4} {f : RoomFields}
    (h : boundElsewhere d.data.rooms r f.out = true) : Dev.roomSet r f d = (d, .no .state) := if_pos h

/-- With no save in progress, or no field given, the room is written and answered (R66, R169). -/
theorem roomSet_of_writes {d : Dev} {r : Fin 4} {f : RoomFields} (h : ¬ boundElsewhere d.data.rooms r f.out = true)
    (hs : d.store.writing = false ∨ f = ⟨none, none, none, none⟩) :
    Dev.roomSet r f d =
      (d.writeRoom r (roomOfFields d.data.rooms[r] f),
        (d.writeRoom r (roomOfFields d.data.rooms[r] f)).roomReply r) := by
  have hbusy : ¬ (RoomFields.any f && d.store.writing) = true := by
    rcases hs with hs | hs
    · simp [hs]
    · simp [(roomFields_any_eq_false_iff f).2 hs]
  rw [Dev.roomSet, if_neg h, if_neg hbusy]

/-- Settles O30: a request not refused writes the room, whose derived values are `Dev.roomAfter`. -/
theorem roomSetWritesAlignsAndReleases : Obligations.RoomSetWritesAlignsAndReleases := by
  unfold Obligations.RoomSetWritesAlignsAndReleases
  intro tag r f s hr
  let e := s.dev.takeRequest (.roomSet tag r f)
  have hdata : e.data = s.dev.data := takeRequest_data _ _
  have hrooms : e.rooms = s.dev.rooms := takeRequest_rooms _ _
  have hstore : e.store = s.dev.store := takeRequest_store _ _
  have hbound : boundElsewhere e.data.rooms r f.out = true ↔
      ∃ o q, f.out = some (.out o) ∧ q ≠ r ∧ s.dev.data.rooms[q].out = some o := by
    rw [hdata]; exact boundElsewhere_iff ..
  rw [exec_roomSet tag r f s hr]
  refine ⟨fun h => ?refused, fun h hs => ?written⟩
  case refused => rw [roomSet_of_boundElsewhere (hbound.2 h)]
  case written =>
    let new := roomOfFields s.dev.data.rooms[r] f
    have hnew : roomOfFields e.data.rooms[r] f = new := by simp only [hdata]; rfl
    have hrun : e.roomAfter r new =
        if runsAlignment s.dev.data.rooms[r] new then align new s.dev.data.std.frame else s.dev.rooms[r] := by
      simp only [Dev.roomAfter, hdata, hrooms]
    obtain ⟨hroom, hderived⟩ := writeRoom_room_same e r new
    have hfree : ¬ boundElsewhere e.data.rooms r f.out = true := fun hb => by
      obtain ⟨o, q, ho, hq, hheld⟩ := hbound.1 hb
      exact h o q ho hq hheld
    rw [roomSet_of_writes hfree (by rw [hstore]; exact hs), hnew]
    refine ⟨e.writeRoom r new, rfl, by simp [e], ?_⟩
    rw [hroom, hderived]
    obtain ⟨hleft, hgiven, hnone⟩ := roomOfFields_out s.dev.data.rooms[r] f
    refine ⟨?data, rfl, rfl, rfl, hleft, hgiven, hnone, fun q hq => ?others, fun hc => ?_, fun hc => ?_, ?raised,
      fun o => ?_⟩
    case data => rw [writeRoom_data, hdata]
    case others => rw [← hdata, ← hrooms]; exact writeRoom_room_other e new hq
    case raised =>
      refine raised_of_taken (i := .roomSet tag r f) (b := e.roomWritten r new) rfl ?_
      rw [writeRoom_eq, hrooms]
    · rw [hrun, if_pos ((runsAlignment_iff _ _).2 hc)]
    · rw [hrun, if_neg (mt (runsAlignment_iff _ _).1 hc)]
    · simp only [writeRoom_data, releaseOut_get, hdata, hrooms]

/-! ### LANE.SET and STATION.SET (R69, R135) -/

theorem laneFields_any_eq_false_iff (f : LaneFields) :
    LaneFields.any f = false ↔ f = ⟨none, none, none, none, none⟩ := by
  obtain ⟨room, sub, accent, level, mute⟩ := f
  simp [LaneFields.any, and_assoc]

theorem exec_laneSet (tag : Nat) (l : Fin 8) (f : LaneFields) (s : State)
    (h : (Instr.laneSet tag l f).rangeOk = true) :
    exec (.laneSet tag l f) s =
      .next (s.replied tag (Dev.laneSet l f (s.dev.takeRequest (.laneSet tag l f))).2
        (Dev.laneSet l f (s.dev.takeRequest (.laneSet tag l f))).1) :=
  request_eq s tag (Dev.laneSet l f) h

/-- A given subdivision ends the cue subdivision (R69). -/
theorem laneRunOf_eq (old : LaneRun) (f : LaneFields) :
    laneRunOf old f = { old with cueSub := if f.sub.isSome then none else old.cueSub } := by
  unfold laneRunOf; split <;> rfl

/-- The part as a LANE.SET leaves it (R69). -/
def Dev.laneWritten (d : Dev) (l : Fin 8) (f : LaneFields) : Dev :=
  (d.setData { d.data with lanes := d.data.lanes.set l (laneOf d.data.lanes[l] f) }).setLanes
    (d.lanes.set l (laneRunOf d.lanes[l] f))

/-- With no save in progress, or no field given, the lane is written and answered (R69, R169). -/
theorem laneSet_of_writes {d : Dev} {l : Fin 8} {f : LaneFields}
    (hs : d.store.writing = false ∨ f = ⟨none, none, none, none, none⟩) :
    Dev.laneSet l f d = (d.laneWritten l f, (d.laneWritten l f).laneReply l) := by
  have hbusy : ¬ (LaneFields.any f && d.store.writing) = true := by
    rcases hs with hs | hs
    · simp [hs]
    · simp [(laneFields_any_eq_false_iff f).2 hs]
  rw [Dev.laneSet, if_neg hbusy]; rfl

theorem exec_stationSet (tag : Nat) (n : Fin 16) (p : Permission) (s : State) :
    exec (.stationSet tag n p) s =
      .next (s.replied tag (Dev.stationSet n p (s.dev.takeRequest (.stationSet tag n p))).2
        (Dev.stationSet n p (s.dev.takeRequest (.stationSet tag n p))).1) :=
  request_eq s tag (Dev.stationSet n p) rfl

/-- The part as a STATION.SET leaves it (R135). -/
def Dev.permWritten (d : Dev) (n : Fin 16) (p : Permission) : Dev :=
  d.setData { d.data with perms := d.data.perms.set n p }

/-- With no save in progress the permission is written and the station answered (R135, R169). -/
theorem stationSet_of_not_writing {d : Dev} {n : Fin 16} {p : Permission} (h : d.store.writing = false) :
    Dev.stationSet n p d = (d.permWritten n p, (d.permWritten n p).stationReply n) := by
  have hbusy : ¬ d.store.writing = true := by simp [h]
  rw [Dev.stationSet, if_neg hbusy]; rfl

/-- Settles O31: each request writes one record of a table and answers with the fields it then has. -/
theorem laneSetAndStationSetWriteTheirFields : Obligations.LaneSetAndStationSetWriteTheirFields := by
  unfold Obligations.LaneSetAndStationSetWriteTheirFields
  refine ⟨fun tag l f s hr hs => ?lane, fun tag n p s hs => ?station⟩
  case lane =>
    intro old new run
    rw [exec_laneSet tag l f s hr, laneSet_of_writes (by rw [takeRequest_store]; exact hs)]
    refine ⟨(s.dev.takeRequest (.laneSet tag l f)).laneWritten l f, ?_, by simp [Dev.laneWritten], ?_, ?_⟩
    · simp only [Dev.laneReply, Dev.laneWritten, setLanes_data, setLanes_lanes, setData_data, takeRequest_data,
        takeRequest_lanes, vector_set_get_same, laneRunOf_eq]
      rfl
    · simp only [Dev.laneWritten, setLanes_data, setData_data, takeRequest_data]; rfl
    · simp only [Dev.laneWritten, setLanes_lanes, takeRequest_lanes, laneRunOf_eq]; rfl
  case station =>
    intro r
    rw [exec_stationSet, stationSet_of_not_writing (by rw [takeRequest_store]; exact hs)]
    refine ⟨(s.dev.takeRequest (.stationSet tag n p)).permWritten n p, ?_, by simp [Dev.permWritten], ?_⟩
    · simp only [Dev.stationReply, Dev.station, Dev.permWritten, setData_data, setData_link, takeRequest_link,
        vector_set_get_same]
      rfl
    · rw [Dev.permWritten, setData_data, takeRequest_data]

/-! ### A click comes due, and the actions of a cue (R70, R75, R76, R147) -/

theorem exec_clickDue (l : Fin 8) (s : State) :
    exec (.clickDue l) s = .next (s.ended (s.dev.updLane l (soundHead s.dev.clock))) := rfl

/-- A head click at or before the clock leaves the queue and sounds (R70). -/
theorem soundHead_of_due {now : Time} {r : LaneRun} {c : Click} {cs : List Click} (hq : r.queue = c :: cs)
    (hc : c.due ≤ now) : soundHead now r = { r with queue := cs, out := some ⟨now, c⟩ } := by
  simp only [soundHead, hq, if_pos hc]

/-- With no click due nothing changes (R70, log 4). -/
theorem soundHead_of_not_due {now : Time} {r : LaneRun} (h : ∀ c cs, r.queue = c :: cs → now < c.due) :
    soundHead now r = r := by
  unfold soundHead
  split
  · next c cs hq => exact if_neg (Nat.not_le.2 (h c cs hq))
  · rfl

/-- A lane left as it was leaves the part as it was. -/
theorem updLane_of_fixed {d : Dev} {l : Fin 8} {f : LaneRun → LaneRun} (h : f d.lanes[l] = d.lanes[l]) :
    d.updLane l f = d := by
  have hkept : d.lanes.set l d.lanes[l] = d.lanes := Vector.set_getElem_self ..
  rw [Dev.updLane, h, hkept]; rfl

theorem exec_laneAction (l : Fin 8) (mute : Mute) (sub : Option Nat) (s : State) :
    exec (.laneAction l mute sub) s =
      .next (s.ended ((s.dev.take (.laneAction l mute sub)).updLane l fun r => r.act mute sub)) := rfl

theorem exec_noteAction (n : Option (Fin 64)) (s : State) :
    exec (.noteAction n) s =
      .next (s.ended ((s.dev.take (.noteAction n)).setVideo { s.dev.video with note := n })) := rfl

theorem exec_lanesStateChange (st : ShowState) (s : State) :
    exec (.lanesStateChange st) s = .next (s.ended ((s.dev.take (.lanesStateChange st)).lanesChanged st)) := rfl

theorem silent_iff (st : ShowState) :
    ShowState.silent st = true ↔ st = .stopped ∨ st = .arming ∨ st = .ready ∨ st = .dark := by
  cases st <;> simp [ShowState.silent]

/-- A silent state empties every lane's queue (R75). -/
theorem lanesChanged_of_silent {d : Dev} {st : ShowState} (h : ShowState.silent st = true) (l : Fin 8) :
    (d.lanesChanged st).lanes[l] = { d.lanes[l] with queue := [] } := by
  rw [Dev.lanesChanged, if_pos h]
  exact mapAll_get ..

/-- Any other state changes nothing (R75). -/
theorem lanesChanged_of_not_silent {d : Dev} {st : ShowState} (h : ¬ ShowState.silent st = true) :
    d.lanesChanged st = d := if_neg h

theorem lanesChanged_handovers (d : Dev) (st : ShowState) : (d.lanesChanged st).handovers = d.handovers :=
  ((keeps_lanesChanged (by decide)).2 keeps_refl : Dev.Keeps [.lanes] d (d.lanesChanged st)).handovers

/-! ### The holder's camera handed to the outputs (R142) -/

theorem exec_focusHandoverVideo (h : Option FocusHand) (s : State) :
    exec (.focusHandoverVideo h) s = .next (s.ended ((s.dev.take (.focusHandoverVideo h)).handCams h)) := rfl

theorem handCams_out (d : Dev) (h : Option FocusHand) (o : Fin 6) :
    (d.handCams h).video.outs[o] =
      { d.video.outs[o] with next := handCam d.data.outs[o].source h d.video.outs[o].next } := by
  simp [Dev.handCams]

/-- A FOCUS output is handed the camera of a holder that has one (R142). -/
theorem handCam_focus (x : Src) (c : Cam) (name : Text) (next : Option Cam) :
    handCam .focus (some ⟨x, some c, name⟩) next = some c := rfl

/-- Any other output, and every one with no camera to hand over, stands (R142, log 31). -/
theorem handCam_of_kept {source : OutSource} {h : Option FocusHand} (next : Option Cam)
    (hk : source ≠ .focus ∨ h = none ∨ ∃ x name, h = some ⟨x, none, name⟩) : handCam source h next = next := by
  unfold handCam
  split
  · next x c name =>
    rcases hk with hk | hk | ⟨_, _, hk⟩
    · exact absurd rfl hk
    · cases hk
    · cases hk
  · rfl

/-- Settles O33: each command is one lane's, all lanes', the note's or the outputs' equation. -/
theorem lanesAndOutputsTakeTheirHandOvers : Obligations.LanesAndOutputsTakeTheirHandOvers := by
  unfold Obligations.LanesAndOutputsTakeTheirHandOvers
  intro s
  refine ⟨fun l => ?lane, fun st => ?change, fun n => exec_noteAction n s, fun h => ?focus⟩
  case lane =>
    intro run
    refine ⟨fun c cs hq hc => ?_, fun h => ?_, fun mute sub => ?_⟩
    · rw [exec_clickDue, Dev.updLane, soundHead_of_due hq hc]; rfl
    · rw [exec_clickDue, updLane_of_fixed (soundHead_of_not_due h)]
    · rw [exec_laneAction]; rfl
  case change =>
    refine ⟨_, exec_lanesStateChange st s, by simp, lanesChanged_handovers _ st, fun h l => ?_, fun h => ?_⟩
    · exact lanesChanged_of_silent ((silent_iff st).2 h) l
    · have hloud : ¬ ShowState.silent st = true := by rcases h with rfl | rfl | rfl <;> decide
      rw [lanesChanged_of_not_silent hloud, take_lanes]
  case focus =>
    refine ⟨_, exec_focusHandoverVideo h s, by simp, rfl, rfl, fun o => ⟨fun x c name hsource hh => ?_, fun hk => ?_⟩⟩
    · rw [handCams_out, take_data, hsource, hh, handCam_focus]; rfl
    · rw [handCams_out, take_data, handCam_of_kept _ hk]; rfl

end Sys2Proof.Machine
end
